-- ==== Sys2Proof/Word.lean ====
section
/-! DEFINITION. The widths of the core: every register, operand and port word is 32 bits (R43, R103), a register
address 16 bits (R43), a byte of a byte transport 8 bits (R103). -/

namespace Sys2Proof

/-- One 32-bit word: a register, a port word, a binary32 bit pattern, an int32 or a u32 (R12, R17, R103). -/
abbrev Word := BitVec 32

/-- A register word-address (R43). -/
abbrev Addr := BitVec 16

/-- One byte of a transport that carries words as bytes (R103). -/
abbrev Byte := BitVec 8

end Sys2Proof
end

