-- ==== Sys2Proof/Syntax.lean ====
section
/-! DEFINITION. The commands: one constructor for each row of spec/opcode_table.json (R136). The fields have exactly the
widths of R131 (V is 3 bits, U is 1 bit, A is 16 bits; a data word is 32 bits), so every term is a command the port can
carry; what can be ill-formed is a packet of words (WellFormed.lean). -/

namespace Sys2Proof

/-- A command with its operands. -/
inductive Instr
  /-- `NOP` (R170). -/
  | nop
  /-- `REG_WR A, value` (R171). -/
  | regWr (a : Addr) (value : Word)
  /-- `REG_RD A` (R172). -/
  | regRd (a : Addr)
  /-- `CORE_RESET` (R324). -/
  | coreReset
  /-- `VOICE_RESET vV` (R250). -/
  | voiceReset (v : Fin 8)
  /-- `ENV_RESET vV, uU` (R191). -/
  | envReset (v : Fin 8) (u : Fin 2)
  /-- `ENV_ATTACK vV, uU` (R192). -/
  | envAttack (v : Fin 8) (u : Fin 2)
  /-- `ENV_RELEASE vV, uU` (R193). -/
  | envRelease (v : Fin 8) (u : Fin 2)
  /-- `ENV_NEXT vV, uU` (R194). -/
  | envNext (v : Fin 8) (u : Fin 2)
  /-- `OSC_RESET vV, uU` (R211). -/
  | oscReset (v : Fin 8) (u : Fin 2)
  /-- `OSC_NEXT vV, uU` (R212). -/
  | oscNext (v : Fin 8) (u : Fin 2)
  /-- `FILT_RESET vV` (R231). -/
  | filtReset (v : Fin 8)
  /-- `FILT_COEF vV, cutoff, q` (R232). -/
  | filtCoef (v : Fin 8) (cutoff q : Word)
  /-- `FILT_RENDER vV, x` (R233). -/
  | filtRender (v : Fin 8) (x : Word)
  /-- `VOICE_RENDER vV, noise_input` (R251). -/
  | voiceRender (v : Fin 8) (noise : Word)
  /-- `VOICE_CTRL vV` (R252). -/
  | voiceCtrl (v : Fin 8)
  /-- `VOICE_PAN vV` (R253). -/
  | voicePan (v : Fin 8)
  /-- `VOICE_PERIOD vV` (R254). -/
  | voicePeriod (v : Fin 8)
  /-- `NOISE_RESET` (R280). -/
  | noiseReset
  /-- `NOISE_NEXT` (R281). -/
  | noiseNext
  /-- `LFO_RESET` (R290). -/
  | lfoReset
  /-- `LFO_TICK` (R291). -/
  | lfoTick
  /-- `GAIN_RESET` (R314). -/
  | gainReset
  /-- `GAIN_SET target` (R311). -/
  | gainSet (target : Word)
  /-- `GAIN_NEXT` (R312). -/
  | gainNext
  /-- `BLOCK_BEGIN` (R320). -/
  | blockBegin
  /-- `SAMPLE` (R321). -/
  | sample
  /-- `BLOCK_END` (R323). -/
  | blockEnd
  deriving DecidableEq, Repr

/-- The voice a command names in its field V, if it has one (R136). -/
def Instr.voice? : Instr → Option (Fin 8)
  | .voiceReset v | .filtReset v | .filtCoef v _ _ | .filtRender v _ | .voiceRender v _ | .voiceCtrl v | .voicePan v
  | .voicePeriod v => some v
  | .envReset v _ | .envAttack v _ | .envRelease v _ | .envNext v _ | .oscReset v _ | .oscNext v _ => some v
  | .nop | .regWr _ _ | .regRd _ | .coreReset | .noiseReset | .noiseNext | .lfoReset | .lfoTick | .gainReset
  | .gainSet _ | .gainNext | .blockBegin | .sample | .blockEnd => none

end Sys2Proof
end

