-- ==== Sys2Proof/WellFormed.lean ====
section
/-! DEFINITION. When a list of port words is one legal packet (R130, R136, R137): the command word matches a row of the
opcode map under that row's mask, and as many data words follow as the row says. Written from the map's `match` and
`mask` columns, independently of the decoder, which works field by field. -/

namespace Sys2Proof

/-- One row of the opcode map of R136: `(word & mask) == pattern` selects it, and a packet has `words` words. -/
structure OpRow where
  pattern : Word
  mask : Word
  words : Nat
  deriving DecidableEq, Repr

/-- The field sets of R136, as masks. -/
def maskNone : Word := 0xFFFFFFFF
/-- Only V is used. -/
def maskV : Word := 0xFC7FFFFF
/-- V and U are used. -/
def maskVU : Word := 0xFC3FFFFF
/-- Only A is used. -/
def maskA : Word := 0xFFFF0000

/-- Rows 0x00 to 0x0D of R136. -/
def opRowsLow : List OpRow := [
  ⟨0x00000000, maskNone, 1⟩, ⟨0x04000000, maskA, 2⟩, ⟨0x08000000, maskA, 1⟩, ⟨0x0C000000, maskNone, 1⟩,
  ⟨0x10000000, maskV, 1⟩, ⟨0x20000000, maskVU, 1⟩, ⟨0x24000000, maskVU, 1⟩, ⟨0x28000000, maskVU, 1⟩,
  ⟨0x2C000000, maskVU, 1⟩, ⟨0x30000000, maskVU, 1⟩, ⟨0x34000000, maskVU, 1⟩]

/-- Rows 0x10 to 0x26 of R136. -/
def opRowsHigh : List OpRow := [
  ⟨0x40000000, maskV, 1⟩, ⟨0x44000000, maskV, 3⟩, ⟨0x48000000, maskV, 2⟩, ⟨0x50000000, maskV, 2⟩,
  ⟨0x54000000, maskV, 1⟩, ⟨0x58000000, maskV, 1⟩, ⟨0x5C000000, maskV, 1⟩, ⟨0x60000000, maskNone, 1⟩,
  ⟨0x64000000, maskNone, 1⟩, ⟨0x70000000, maskNone, 1⟩, ⟨0x74000000, maskNone, 1⟩, ⟨0x80000000, maskNone, 1⟩,
  ⟨0x84000000, maskNone, 2⟩, ⟨0x88000000, maskNone, 1⟩, ⟨0x90000000, maskNone, 1⟩, ⟨0x94000000, maskNone, 1⟩,
  ⟨0x98000000, maskNone, 1⟩]

/-- The opcode map of R136. -/
def opRows : List OpRow := opRowsLow ++ opRowsHigh

/-- The row a command word selects, if any. -/
def rowOf (w : Word) : Option OpRow := opRows.find? fun r => w &&& r.mask == r.pattern

/-- The list is exactly one legal packet: a legal command word and its data words, no more and no fewer. -/
def Packet.wellFormed : List Word → Bool
  | [] => false
  | w :: ds =>
    match rowOf w with
    | some r => ds.length + 1 == r.words
    | none => false

end Sys2Proof
end

