-- ==== Sys2Proof/Decode.lean ====
section
/-! DEFINITION. The decoder, total on any words and rejecting by name, and after it the encoder (R130 to R138), and the
byte transport of R103. -/

namespace Sys2Proof

/-! ### Fields of a command word (R131, R132) -/

/-- `OP = w[31:26]`. -/
def opField (w : Word) : Nat := w.toNat / 2 ^ 26

/-- `V = w[25:23]`. -/
def vField (w : Word) : Fin 8 := ⟨w.toNat / 2 ^ 23 % 8, Nat.mod_lt _ (by decide)⟩

/-- `U = w[22]`. -/
def uField (w : Word) : Fin 2 := ⟨w.toNat / 2 ^ 22 % 2, Nat.mod_lt _ (by decide)⟩

/-- `Z = w[21:16]`, reserved. -/
def zField (w : Word) : Nat := w.toNat / 2 ^ 16 % 64

/-- `A = w[15:0]`. -/
def aField (w : Word) : Addr := BitVec.ofNat 16 w.toNat

/-! ### Decoding -/

/-- Why words are not a packet: causes 1 and 2 of R341, or too few words. -/
inductive Reject
  /-- Cause 1, `UNDEFINED_OP`: the opcode is not in R136. -/
  | undefinedOp
  /-- Cause 2, `BAD_FIELD`: Z or an unused field is not 0. -/
  | badField
  /-- Not a report of the core: the list ends before the packet does. -/
  | truncated
  deriving DecidableEq, Repr

/-- The cause code of R341 that a rejected command word reports (`truncated` reports none: it never reaches the core's
report, since the port waits for the words that are missing). -/
def Reject.cause : Reject → BitVec 4
  | .undefinedOp => 1
  | .badField => 2
  | .truncated => 0

/-- R137 cause 2: Z is 0, and so is every field the command does not use. -/
def fieldsOk (usesV usesU usesA : Bool) (w : Word) : Bool :=
  zField w == 0 && (usesV || vField w == 0) && (usesU || uField w == 0) && (usesA || aField w == 0)

/-- Accepts the command `i` if the unused fields of its word are 0. -/
def checked (usesV usesU usesA : Bool) (w : Word) (i : Instr) : Except Reject Instr :=
  if fieldsOk usesV usesU usesA w then .ok i else .error .badField

/-- The command of the command word `w` and its data words, of which `R136` uses none, the first or both. Cause 1 is
found before cause 2 (R137). -/
def decodeCmd (w d0 d1 : Word) : Except Reject Instr :=
  match opField w with
  | 0x00 => checked false false false w .nop
  | 0x01 => checked false false true w (.regWr (aField w) d0)
  | 0x02 => checked false false true w (.regRd (aField w))
  | 0x03 => checked false false false w .coreReset
  | 0x04 => checked true false false w (.voiceReset (vField w))
  | 0x08 => checked true true false w (.envReset (vField w) (uField w))
  | 0x09 => checked true true false w (.envAttack (vField w) (uField w))
  | 0x0A => checked true true false w (.envRelease (vField w) (uField w))
  | 0x0B => checked true true false w (.envNext (vField w) (uField w))
  | 0x0C => checked true true false w (.oscReset (vField w) (uField w))
  | 0x0D => checked true true false w (.oscNext (vField w) (uField w))
  | 0x10 => checked true false false w (.filtReset (vField w))
  | 0x11 => checked true false false w (.filtCoef (vField w) d0 d1)
  | 0x12 => checked true false false w (.filtRender (vField w) d0)
  | 0x14 => checked true false false w (.voiceRender (vField w) d0)
  | 0x15 => checked true false false w (.voiceCtrl (vField w))
  | 0x16 => checked true false false w (.voicePan (vField w))
  | 0x17 => checked true false false w (.voicePeriod (vField w))
  | 0x18 => checked false false false w .noiseReset
  | 0x19 => checked false false false w .noiseNext
  | 0x1C => checked false false false w .lfoReset
  | 0x1D => checked false false false w .lfoTick
  | 0x20 => checked false false false w .gainReset
  | 0x21 => checked false false false w (.gainSet d0)
  | 0x22 => checked false false false w .gainNext
  | 0x24 => checked false false false w .blockBegin
  | 0x25 => checked false false false w .sample
  | 0x26 => checked false false false w .blockEnd
  | _ => .error .undefinedOp

/-- How many data words follow a legal command word (R130, R136: the opcode alone fixes it). -/
def dataWords (w : Word) : Nat :=
  match opField w with
  | 0x01 | 0x12 | 0x14 | 0x21 => 1
  | 0x11 => 2
  | _ => 0

/-- How many words the packet of the command word `w` has; a rejected command word is a packet of one word (R137). -/
def packetWords (w : Word) : Nat :=
  match decodeCmd w 0 0 with
  | .ok _ => dataWords w + 1
  | .error _ => 1

/-- The first packet of a list of words, and the words after it. -/
def decode : List Word → Except Reject (Instr × List Word)
  | [] => .error .truncated
  | w :: rest =>
    match decodeCmd w 0 0 with
    | .error r => .error r
    | .ok _ =>
      match dataWords w, rest with
      | 0, rest => (decodeCmd w 0 0).map (·, rest)
      | 1, d0 :: rest => (decodeCmd w d0 0).map (·, rest)
      | 2, d0 :: d1 :: rest => (decodeCmd w d0 d1).map (·, rest)
      | _, _ => .error .truncated

/-! ### Encoding -/

/-- `(OP << 26) | (V << 23) | (U << 22) | (Z << 16) | A` with Z = 0 (R131). -/
def cmdWord (op : Nat) (v : Fin 8) (u : Fin 2) (a : Addr) : Word :=
  BitVec.ofNat 32 (op * 2 ^ 26 + v.val * 2 ^ 23 + u.val * 2 ^ 22 + a.toNat)

/-- The command word of a command: its opcode in R136 and the fields it uses, the others 0. -/
def encodeCmd : Instr → Word
  | .nop => cmdWord 0x00 0 0 0
  | .regWr a _ => cmdWord 0x01 0 0 a
  | .regRd a => cmdWord 0x02 0 0 a
  | .coreReset => cmdWord 0x03 0 0 0
  | .voiceReset v => cmdWord 0x04 v 0 0
  | .envReset v u => cmdWord 0x08 v u 0
  | .envAttack v u => cmdWord 0x09 v u 0
  | .envRelease v u => cmdWord 0x0A v u 0
  | .envNext v u => cmdWord 0x0B v u 0
  | .oscReset v u => cmdWord 0x0C v u 0
  | .oscNext v u => cmdWord 0x0D v u 0
  | .filtReset v => cmdWord 0x10 v 0 0
  | .filtCoef v _ _ => cmdWord 0x11 v 0 0
  | .filtRender v _ => cmdWord 0x12 v 0 0
  | .voiceRender v _ => cmdWord 0x14 v 0 0
  | .voiceCtrl v => cmdWord 0x15 v 0 0
  | .voicePan v => cmdWord 0x16 v 0 0
  | .voicePeriod v => cmdWord 0x17 v 0 0
  | .noiseReset => cmdWord 0x18 0 0 0
  | .noiseNext => cmdWord 0x19 0 0 0
  | .lfoReset => cmdWord 0x1C 0 0 0
  | .lfoTick => cmdWord 0x1D 0 0 0
  | .gainReset => cmdWord 0x20 0 0 0
  | .gainSet _ => cmdWord 0x21 0 0 0
  | .gainNext => cmdWord 0x22 0 0 0
  | .blockBegin => cmdWord 0x24 0 0 0
  | .sample => cmdWord 0x25 0 0 0
  | .blockEnd => cmdWord 0x26 0 0 0

/-- The data words of a command, in the order they are sent (R133, R136). -/
def encodeData : Instr → List Word
  | .regWr _ value => [value]
  | .filtCoef _ cutoff q => [cutoff, q]
  | .filtRender _ x => [x]
  | .voiceRender _ noise => [noise]
  | .gainSet target => [target]
  | .nop | .regRd _ | .coreReset | .voiceReset _ | .envReset _ _ | .envAttack _ _ | .envRelease _ _ | .envNext _ _
  | .oscReset _ _ | .oscNext _ _ | .filtReset _ | .voiceCtrl _ | .voicePan _ | .voicePeriod _ | .noiseReset
  | .noiseNext | .lfoReset | .lfoTick | .gainReset | .gainNext | .blockBegin | .sample | .blockEnd => []

/-- The packet of a command. -/
def encode (i : Instr) : List Word := encodeCmd i :: encodeData i

/-! ### The byte transport of R103: a word's least significant byte comes first -/

/-- The word four bytes carry. -/
def wordOfBytes (b0 b1 b2 b3 : Byte) : Word := b3 ++ b2 ++ b1 ++ b0

/-- The bytes a word is sent as. -/
def bytesOfWord (w : Word) : List Byte :=
  [w.extractLsb' 0 8, w.extractLsb' 8 8, w.extractLsb' 16 8, w.extractLsb' 24 8]

/-- The whole words at the head of a list of bytes; up to three bytes at its end are no word yet. -/
def wordsOfBytes : List Byte → List Word
  | b0 :: b1 :: b2 :: b3 :: rest => wordOfBytes b0 b1 b2 b3 :: wordsOfBytes rest
  | _ => []

/-! ### The host's numbering of an instruction's bits -/

/-- The three port words of an instruction whose low `nbits` bits are those of `w`, numbered from bit 0 of the command
word on, and whose other bits are 0 (a packet has at most three words, R130). -/
def tableWords (nbits w : Nat) : Word × Word × Word :=
  let n := w % 2 ^ nbits
  (BitVec.ofNat 32 n, BitVec.ofNat 32 (n / 2 ^ 32), BitVec.ofNat 32 (n / 2 ^ 64))

/-- The packet of that instruction: as many of the three words as its command word asks for. -/
def tablePacket (nbits w : Nat) : List Word :=
  let (w0, w1, w2) := tableWords nbits w
  [w0, w1, w2].take (packetWords w0)

/-- The instruction the decoder reads from that packet; none where it rejects it. -/
def decodeTableWord (nbits w : Nat) : Option Instr :=
  match decode (tablePacket nbits w) with
  | .ok (i, _) => some i
  | .error _ => none

end Sys2Proof
end

