-- ==== Sys2Proof/Config.lean ====
section
/-! DEFINITION. What is fixed for one core: the parameters of R7 (the defaults the spec names, as bit patterns), and the
free values the spec leaves OPEN, as constants without a body (log entries 5 to 8). -/

namespace Sys2Proof

/-- The two values of the OPEN parameter `DENORMAL_MODE` (R14). -/
inductive DenormalMode
  /-- Subnormals are kept. -/
  | ieee
  /-- A subnormal input reads as a zero of the same sign, and a subnormal result is written as one. -/
  | ftzDaz
  deriving DecidableEq, Repr, Inhabited

/-- The two values of `NOISE_MAP` (R281, D17). -/
inductive NoiseMap
  /-- The default: odd multiples of 2^-24, inside (-1, 1). -/
  | openInterval
  /-- The upstream map, which reaches -1. -/
  | upstream
  deriving DecidableEq, Repr, Inhabited

/-- The four rounded operations of R13, as a key of the free NaN patterns. -/
inductive FpOp
  | add | sub | mul | div
  deriving DecidableEq, Repr, Inhabited

namespace Config

/-! ### OPEN parameters and free values: no body, so no proof can see a value -/

/-- `DENORMAL_MODE` (R14, D3): OPEN. -/
opaque denormalMode : DenormalMode

/-- `FSIN` (R16, D4): OPEN, a total function of its operand alone. -/
opaque fsin : Word → Word

/-- `FCOS` (R16, D4). -/
opaque fcos : Word → Word

/-- `FTAN` (R16, D4). -/
opaque ftan : Word → Word

/-- `FEXP` (R16, D4). -/
opaque fexp : Word → Word

/-- I7 of spec/93_implementation_defined.md: the sign and the low 22 fraction bits of a NaN that an operation produces
are any value. A free value for each executed command (the counter), operation and pair of operands
(DESIGN CHOICE, log entry 5). -/
opaque nanBits : Nat → FpOp → Word → Word → BitVec 23

/-! ### Parameters with a default (R7) -/

/-- The default of `NOISE_MAP`, which 90_conflicts C4 says governs. The parameter itself stands in State (log entry 8). -/
def noiseMapDefault : NoiseMap := .openInterval

/-- `LFO_MAX`, an int32. -/
def lfoMax : Word := 32

/-- `NOISE_A` (D16). -/
def noiseA : Word := 196314165

/-- `NOISE_C` (D16). -/
def noiseC : Word := 907633515

/-- `NOISE_SEED0` (D16). -/
def noiseSeed0 : Word := 22222

/-- `SILENCE` = binary32(0.001). -/
def silence : Word := 0x3A83126F

/-- `ATTACK_TARGET` = 2.0. -/
def attackTarget : Word := 0x40000000

/-- `ATTACK_EXIT` = 3.0. -/
def attackExit : Word := 0x40400000

/-- `LEAK` = binary32(0.997). -/
def leak : Word := 0x3F7F3B64

/-- `CUTOFF_MIN` = 30.0. -/
def cutoffMin : Word := 0x41F00000

/-- `CUTOFF_MAX` = 20000.0. -/
def cutoffMax : Word := 0x469C4000

/-- `PAN_CENTER` = 60.0. -/
def panCenter : Word := 0x42700000

/-- `PAN_SPAN` = 24.0. -/
def panSpan : Word := 0x41C00000

/-- `PI_F` = binary32(pi). -/
def piF : Word := 0x40490FDB

/-- `TWO_PI_F` = binary32(2 pi). -/
def twoPiF : Word := 0x40C90FDB

/-- `PI_OVER_4_F` = binary32(pi/4). -/
def piOver4F : Word := 0x3F490FDB

/-- `OSC_T` = binary32(pi/4) (D18). -/
def oscT : Word := 0x3F490FDB

/-- `OSC_EPS2` = binary32(1e-9) (D19). -/
def oscEps2 : Word := 0x3089705F

/-- `ZIP_COEF` = binary32(0.005) (D23). -/
def zipCoef : Word := 0x3BA3D70A

/-- `PAN_RESET` = binary32(0.707) (D34). -/
def panReset : Word := 0x3F34FDF4

/-- The constant of the register `ID` (R51). -/
def idWord : Word := 0x43583131

/-! ### The host contracts' bounds (R7, R377): not enforced by the core -/

/-- `PERIOD_FLOOR` = 6.0. -/
def periodFloor : Word := 0x40C00000

/-- `Q_MIN` = 0.5. -/
def qMin : Word := 0x3F000000

/-! ### Decimal literals of the pseudocode (R12) -/

/-- binary32(0). -/
def zeroF : Word := 0x00000000

/-- binary32(0.5). -/
def halfF : Word := 0x3F000000

/-- binary32(1). -/
def oneF : Word := 0x3F800000

/-- binary32(-1). -/
def minusOneF : Word := 0xBF800000

/-- binary32(2). -/
def twoF : Word := 0x40000000

/-- binary32(16777216), 2^24, the divisor of R281. -/
def twoPow24F : Word := 0x4B800000

/-- binary32(44100), the placeholder `SAMPLE_RATE` of R360. -/
def sampleRate0 : Word := 0x472C4400

end Config

end Sys2Proof
end

