-- ==== Sys2Proof/Machine/Float.lean ====
section
/-! DEFINITION. binary32 arithmetic (R12 to R17): every operand is unpacked to an exact number, the operation is
exact, and one rounding to nearest, ties to even, packs the result. -/

namespace Sys2Proof.Machine

/-! ### Bit patterns (R103: sign bit 31, exponent bits 30:23, fraction bits 22:0) -/

/-- The sign bit. -/
def signBit (a : Word) : Bool := a.msb

/-- The biased exponent. -/
def expField (a : Word) : Nat := a.toNat / 2 ^ 23 % 2 ^ 8

/-- The fraction. -/
def fracField (a : Word) : Nat := a.toNat % 2 ^ 23

/-- A NaN pattern. -/
def isNaN (a : Word) : Bool := expField a == 255 && fracField a != 0

/-- An infinity. -/
def isInf (a : Word) : Bool := expField a == 255 && fracField a == 0

/-- Neither a NaN nor an infinity. -/
def isFinite (a : Word) : Bool := expField a != 255

/-- A subnormal number. -/
def isSubnormal (a : Word) : Bool := expField a == 0 && fracField a != 0

/-- The pattern with this sign and these low 31 bits. -/
def signed (neg : Bool) (magnitude : Nat) : Word := BitVec.ofNat 32 (magnitude + if neg then 2 ^ 31 else 0)

/-- A zero of this sign. -/
def zeroOf (neg : Bool) : Word := signed neg 0

/-- An infinity of this sign. -/
def infOf (neg : Bool) : Word := signed neg 0x7F800000

/-- `-x` "flips the sign bit and is exact" (R13). -/
def fneg (a : Word) : Word := a ^^^ 0x80000000

/-- `DENORMAL_MODE` (R14): in `FTZ_DAZ` a subnormal stands for a zero of the same sign. Every other pattern is untouched
in either mode. -/
def flushSubnormal (a : Word) : Word :=
  if isSubnormal a then
    match Config.denormalMode with
    | .ieee => a
    | .ftzDaz => zeroOf (signBit a)
  else a

/-- The quiet NaN an operation produces: all exponent bits and the first fraction bit set, the other 23 bits free
(I7; log entry 5). -/
def quietNaN (k : Nat) (op : FpOp) (a b : Word) : Word :=
  let free := Config.nanBits k op a b
  free.extractLsb' 22 1 ++ (0x1FF#9) ++ free.extractLsb' 0 22

/-! ### Exact values -/

/-- What a pattern stands for: a finite number is `±n * 2^-149`, every binary32 number being a whole multiple of the
smallest subnormal. -/
inductive FVal
  | nan
  | inf (neg : Bool)
  | fin (neg : Bool) (n : Nat)
  deriving DecidableEq, Repr

/-- The value of a pattern. -/
def unpack (a : Word) : FVal :=
  if expField a = 255 then
    if fracField a = 0 then .inf (signBit a) else .nan
  else if expField a = 0 then .fin (signBit a) (fracField a)
  else .fin (signBit a) ((fracField a + 2 ^ 23) * 2 ^ (expField a - 1))

/-- The value an operand is read as (R14). -/
def operand (a : Word) : FVal := unpack (flushSubnormal a)

/-- The number with the other sign. -/
def FVal.negate : FVal → FVal
  | .nan => .nan
  | .inf neg => .inf (!neg)
  | .fin neg n => .fin (!neg) n

/-- The integer `±n`. -/
def signedInt (neg : Bool) (n : Nat) : Int := if neg then -(n : Int) else n

/-! ### Rounding -/

/-- `±(p / q) * 2^-149` rounded to the nearest binary32, ties to even, overflowing to an infinity (R13). With `2^e` the
weight of the last bit in the binade of the number, `m` the whole number of such bits and the remainder deciding
whether to go one up, the pattern is `e * 2^23 + m` in every binade, the subnormal one too. -/
def roundRat (neg : Bool) (p q : Nat) : Word :=
  let e := (p / q).log2 - 23
  let d := q * 2 ^ e
  let m := p / d
  let r := p % d
  let up := decide (d < 2 * r) || (2 * r == d && m % 2 == 1)
  signed neg (min (e * 2 ^ 23 + if up then m + 1 else m) 0x7F800000)

/-- The rounding of R13 and then the flush of a subnormal result (R14). -/
def roundFlush (neg : Bool) (p q : Nat) : Word := flushSubnormal (roundRat neg p q)

/-! ### The four operations (R13) -/

/-- The sum of two values; `nan` is the pattern of a NaN result. An exact zero sum is -0 only if both operands are
negative. -/
def addVal (nan : Word) : FVal → FVal → Word
  | .nan, _ => nan
  | .inf _, .nan => nan
  | .fin _ _, .nan => nan
  | .inf x, .inf y => if x = y then infOf x else nan
  | .inf x, .fin _ _ => infOf x
  | .fin _ _, .inf y => infOf y
  | .fin x m, .fin y n =>
    let z := signedInt x m + signedInt y n
    roundFlush (if z = 0 then x && y else decide (z < 0)) z.natAbs 1

/-- The product of two values; `0 * inf` is a NaN. -/
def mulVal (nan : Word) : FVal → FVal → Word
  | .nan, _ => nan
  | .inf _, .nan => nan
  | .fin _ _, .nan => nan
  | .inf x, .inf y => infOf (x ^^ y)
  | .inf x, .fin y n => if n = 0 then nan else infOf (x ^^ y)
  | .fin x m, .inf y => if m = 0 then nan else infOf (x ^^ y)
  | .fin x m, .fin y n => roundFlush (x ^^ y) (m * n) (2 ^ 149)

/-- The quotient of two values; `0 / 0` and `inf / inf` are NaNs, `x / 0` is a signed infinity. -/
def divVal (nan : Word) : FVal → FVal → Word
  | .nan, _ => nan
  | .inf _, .nan => nan
  | .fin _ _, .nan => nan
  | .inf _, .inf _ => nan
  | .inf x, .fin y _ => infOf (x ^^ y)
  | .fin x _, .inf y => zeroOf (x ^^ y)
  | .fin x m, .fin y n =>
    if n = 0 then (if m = 0 then nan else infOf (x ^^ y)) else roundFlush (x ^^ y) (m * 2 ^ 149) n

/-- `a + b`; `k` is the counter of the free NaN patterns. -/
def fadd (k : Nat) (a b : Word) : Word := addVal (quietNaN k .add a b) (operand a) (operand b)

/-- `a - b`. -/
def fsub (k : Nat) (a b : Word) : Word := addVal (quietNaN k .sub a b) (operand a) (operand b).negate

/-- `a * b`. -/
def fmul (k : Nat) (a b : Word) : Word := mulVal (quietNaN k .mul a b) (operand a) (operand b)

/-- `a / b`. -/
def fdiv (k : Nat) (a b : Word) : Word := divVal (quietNaN k .div a b) (operand a) (operand b)

/-! ### The configuration functions (R16) -/

/-- A function of Config under `DENORMAL_MODE` (R14): it reads its operand, and writes its result, as the mode says. -/
def configured (f : Word → Word) (x : Word) : Word := flushSubnormal (f (flushSubnormal x))

/-- `FSIN(x)`. -/
def fsin (x : Word) : Word := configured Config.fsin x

/-- `FCOS(x)`. -/
def fcos (x : Word) : Word := configured Config.fcos x

/-- `FTAN(x)`. -/
def ftan (x : Word) : Word := configured Config.ftan x

/-- `FEXP(x)`. -/
def fexp (x : Word) : Word := configured Config.fexp x

/-! ### Conversions (R15, R17) -/

/-- `floor(x)`: roundToIntegralTowardNegative; NaN, infinities and zeros unchanged (R15). -/
def ffloor (a : Word) : Word :=
  match operand a with
  | .nan => a
  | .inf _ => a
  | .fin neg n =>
    if n = 0 then flushSubnormal a
    else if neg then roundRat true ((n + (2 ^ 149 - 1)) / 2 ^ 149 * 2 ^ 149) 1
    else roundRat false (n / 2 ^ 149 * 2 ^ 149) 1

/-- `i2f(n)`: an int32 to binary32, to nearest even (R17). -/
def i2f (n : Word) : Word := roundRat (decide (n.toInt < 0)) (n.toInt.natAbs * 2 ^ 149) 1

end Sys2Proof.Machine
end

