-- ==== Sys2Proof/Machine/State.lean ====
section
/-! DEFINITION. The state: the global registers, eight voices and the command decoder (R40), the events waiting on the
core's inputs and the word on its response port; the names of the registers; why a step can stop; and the state after
the power-on reset (R360). All of it is plain data. -/

namespace Sys2Proof.Machine

/-! ### The register sets (R45 to R50) -/

/-- The stored registers of one oscillator (R48). -/
structure Oscillator where
  /-- `OSC_PERIOD` -/
  period : Word
  /-- `OSC_AMPLITUDE` -/
  amplitude : Word
  /-- `OSC_MODULATION` -/
  modulation : Word
  /-- `OSC_PHASE` -/
  phase : Word
  /-- `OSC_PHASE_MAX` -/
  phaseMax : Word
  /-- `OSC_PHASE_INC` -/
  phaseInc : Word
  /-- `OSC_SIN0` -/
  sin0 : Word
  /-- `OSC_SIN1` -/
  sin1 : Word
  /-- `OSC_DSIN` -/
  dsin : Word
  /-- `OSC_DC_OFFSET` -/
  dcOffset : Word
  /-- `OSC_OUT` -/
  out : Word
  deriving DecidableEq, Repr

/-- The stored registers of one envelope (R49); `ENV_STATUS` is derived and not stored (R54). -/
structure Envelope where
  /-- `ENV_LEVEL` -/
  level : Word
  /-- `ENV_TARGET` -/
  target : Word
  /-- `ENV_MULTIPLIER` -/
  multiplier : Word
  /-- `ENV_ATTACK_MUL` -/
  attackMul : Word
  /-- `ENV_DECAY_MUL` -/
  decayMul : Word
  /-- `ENV_SUSTAIN_LEVEL` -/
  sustainLevel : Word
  /-- `ENV_RELEASE_MUL` -/
  releaseMul : Word
  deriving DecidableEq, Repr

/-- The registers of one filter (R50). -/
structure Filter where
  /-- `FILT_G` -/
  g : Word
  /-- `FILT_K` -/
  k : Word
  /-- `FILT_A1` -/
  a1 : Word
  /-- `FILT_A2` -/
  a2 : Word
  /-- `FILT_A3` -/
  a3 : Word
  /-- `FILT_IC1EQ` -/
  ic1eq : Word
  /-- `FILT_IC2EQ` -/
  ic2eq : Word
  /-- `FILT_OUT` -/
  out : Word
  deriving DecidableEq, Repr

/-- One voice: its record (R47), two oscillators, the amplitude envelope `env0`, the filter envelope `env1`, and a filter (R8, R40). -/
structure Voice where
  /-- `NOTE (int32)` -/
  note : Word
  /-- `SAW` -/
  saw : Word
  /-- `PERIOD` -/
  period : Word
  /-- `TARGET` -/
  target : Word
  /-- `GLIDE_RATE` -/
  glideRate : Word
  /-- `PAN_LEFT` -/
  panLeft : Word
  /-- `PAN_RIGHT` -/
  panRight : Word
  /-- `CUTOFF` -/
  cutoff : Word
  /-- `FILTER_MOD` -/
  filterMod : Word
  /-- `FILTER_Q` -/
  filterQ : Word
  /-- `PITCH_BEND` -/
  pitchBend : Word
  /-- `FILTER_ENV_DEPTH` -/
  filterEnvDepth : Word
  /-- `VOICE_OUT` -/
  voiceOut : Word
  /-- `CUTOFF_MOD` -/
  cutoffMod : Word
  /-- Oscillator 0. -/
  osc0 : Oscillator
  /-- Oscillator 1. -/
  osc1 : Oscillator
  /-- Envelope 0, the amplitude envelope. -/
  env0 : Envelope
  /-- Envelope 1, the filter envelope. -/
  env1 : Envelope
  /-- The filter. -/
  filt : Filter
  deriving DecidableEq, Repr

/-- The eight voices (R8). -/
structure Voices where
  v0 : Voice
  v1 : Voice
  v2 : Voice
  v3 : Voice
  v4 : Voice
  v5 : Voice
  v6 : Voice
  v7 : Voice
  deriving DecidableEq, Repr

/-- The stored global registers (R45). `ID` is a constant and not stored (R51); `STATUS` and `CTRL` are stored as their
fields, since every other bit of them reads 0 and ignores writes (R52, R53). -/
structure Globals where
  /-- `STATUS.ILL` -/
  ill : Bool
  /-- `STATUS.CAUSE` -/
  cause : BitVec 4
  /-- `CTRL.MONO` -/
  mono : Bool
  /-- `SAMPLE_RATE` -/
  sampleRate : Word
  /-- `NOISE_SEED (u32)` -/
  noiseSeed : Word
  /-- `NOISE_OUT` -/
  noiseOut : Word
  /-- `NOISE_MIX` -/
  noiseMix : Word
  /-- `ILL_WORD (u32)` -/
  illWord : Word
  /-- `LFO_PHASE` -/
  lfoPhase : Word
  /-- `LFO_INC` -/
  lfoInc : Word
  /-- `LFO_STEP (int32)` -/
  lfoStep : Word
  /-- `LFO_SINE` -/
  lfoSine : Word
  /-- `VIBRATO_MOD` -/
  vibratoMod : Word
  /-- `PWM_MOD` -/
  pwmMod : Word
  /-- `FILTER_ZIP` -/
  filterZip : Word
  /-- `MOD_WHEEL` -/
  modWheel : Word
  /-- `VIBRATO` -/
  vibrato : Word
  /-- `PWM_DEPTH` -/
  pwmDepth : Word
  /-- `FILTER_KEYTRACK` -/
  filterKeytrack : Word
  /-- `FILTER_CTL` -/
  filterCtl : Word
  /-- `FILTER_LFO_DEPTH` -/
  filterLfoDepth : Word
  /-- `PRESSURE` -/
  pressure : Word
  /-- `LFO_FMOD` -/
  lfoFmod : Word
  /-- `PITCH_BEND` -/
  pitchBend : Word
  /-- `DETUNE` -/
  detune : Word
  /-- `GLIDE_RATE` -/
  glideRate : Word
  /-- `FILTER_Q` -/
  filterQ : Word
  /-- `RESONANCE_CTL` -/
  resonanceCtl : Word
  /-- `FILTER_ENV_DEPTH` -/
  filterEnvDepth : Word
  /-- `GAIN_CUR` -/
  gainCur : Word
  /-- `GAIN_TARGET` -/
  gainTarget : Word
  /-- `GAIN_STEP` -/
  gainStep : Word
  /-- `GAIN_COUNT (int32)` -/
  gainCount : Word
  /-- `GAIN_STEPS (int32)` -/
  gainSteps : Word
  /-- `GAIN_OUT` -/
  gainOut : Word
  /-- `MIX_L` -/
  mixL : Word
  /-- `MIX_R` -/
  mixR : Word
  /-- `OUT_L` -/
  outL : Word
  /-- `OUT_R` -/
  outR : Word
  deriving DecidableEq, Repr

/-! ### The command decoder and the port -/

/-- The command decoder `dec` (R58), hidden state. -/
structure Dec where
  /-- `dec.need`: the data words still to collect, 0 to 2. -/
  need : Nat
  /-- `dec.cmd`: the command word being collected. -/
  cmd : Word
  /-- `dec.data[0]` -/
  data0 : Word
  /-- `dec.data[1]` -/
  data1 : Word
  /-- The host that sent `cmd`: the model's own, to refuse the runs R109 says a model must refuse (log entry 4). -/
  src : Nat
  deriving DecidableEq, Repr

/-- One event on the core's inputs. -/
inductive Input
  /-- A word on the command port (R58), sent by the host with this number. -/
  | word (src : Nat) (w : Word)
  /-- The reset input `RST` is asserted (R360). -/
  | rst
  deriving DecidableEq, Repr

/-- The state of the core (R40) and of its ports. -/
structure State where
  /-- The global registers. -/
  g : Globals
  /-- The eight voices. -/
  voices : Voices
  /-- The command decoder. -/
  dec : Dec
  /-- The events waiting on the inputs, oldest first (log entry 1). -/
  inputs : List Input
  /-- The word on the response port: that of the last executed command, if it was a `REG_RD` (D6, R59; log entry 2). -/
  response : Option Word
  /-- The model's own: how many commands have run, the key of the free NaN patterns (I7; log entry 5). -/
  freeDraws : Nat
  /-- The parameter `NOISE_MAP` of this core (R7, R281; log entry 8): no step changes it. -/
  noiseMap : NoiseMap
  deriving DecidableEq, Repr

/-! ### Register names -/

/-- The global registers by name (R45). -/
inductive GReg
  | id | status | ctrl | sampleRate | noiseSeed | noiseOut | noiseMix | illWord | lfoPhase | lfoInc | lfoStep
  | lfoSine | vibratoMod | pwmMod | filterZip | modWheel | vibrato | pwmDepth | filterKeytrack | filterCtl
  | filterLfoDepth | pressure | lfoFmod | pitchBend | detune | glideRate | filterQ | resonanceCtl | filterEnvDepth
  | gainCur | gainTarget | gainStep | gainCount | gainSteps | gainOut | mixL | mixR | outL | outR
  deriving DecidableEq, Repr

/-- The voice record's registers by name (R47). -/
inductive VReg
  | note | saw | period | target | glideRate | panLeft | panRight | cutoff | filterMod | filterQ | pitchBend
  | filterEnvDepth | voiceOut | cutoffMod
  deriving DecidableEq, Repr

/-- An oscillator's registers by name (R48). -/
inductive OReg
  | period | amplitude | modulation | phase | phaseMax | phaseInc | sin0 | sin1 | dsin | dcOffset | out
  deriving DecidableEq, Repr

/-- An envelope's registers by name (R49). -/
inductive EReg
  | level | target | multiplier | attackMul | decayMul | sustainLevel | releaseMul | status
  deriving DecidableEq, Repr

/-- A filter's registers by name (R50). -/
inductive FReg
  | g | k | a1 | a2 | a3 | ic1eq | ic2eq | out
  deriving DecidableEq, Repr

/-- Every register of the core, by path (R10). -/
inductive Reg
  | glob (r : GReg)
  | voice (v : Fin 8) (r : VReg)
  | osc (v : Fin 8) (u : Fin 2) (r : OReg)
  | env (v : Fin 8) (u : Fin 2) (r : EReg)
  | filt (v : Fin 8) (r : FReg)
  deriving DecidableEq, Repr

/-! ### Why a step can stop -/

/-- The core has no faults: it "raises no trap and no exception" (R340), so nothing raises one, and an illegal command is
a status update after which the machine goes on (R342). -/
inductive Fault
  deriving DecidableEq, Repr

/-- Why a step has no answer. -/
inductive Refusal
  /-- The command has no meaning in the model yet. Raised by arms of `exec` only; safe. -/
  | notModelled (mnemonic : String)
  /-- The words of two hosts interleave inside one packet: the result "is not defined by this spec. A model must refuse
  such a run" (R109, I9). Raised by `step` alone; safe. -/
  | interleavedPacket
  deriving DecidableEq, Repr

/-! ### The power-on reset (R360) -/

/-- The power-on column of R48. -/
def Oscillator.reset : Oscillator where
  period := Config.zeroF
  amplitude := Config.oneF
  modulation := Config.oneF
  phase := Config.zeroF
  phaseMax := Config.zeroF
  phaseInc := Config.zeroF
  sin0 := Config.zeroF
  sin1 := Config.zeroF
  dsin := Config.zeroF
  dcOffset := Config.zeroF
  out := Config.zeroF

/-- The power-on column of R49. -/
def Envelope.reset : Envelope where
  level := Config.zeroF
  target := Config.zeroF
  multiplier := Config.zeroF
  attackMul := Config.zeroF
  decayMul := Config.zeroF
  sustainLevel := Config.zeroF
  releaseMul := Config.zeroF

/-- The power-on column of R50. -/
def Filter.reset : Filter where
  g := Config.zeroF
  k := Config.zeroF
  a1 := Config.zeroF
  a2 := Config.zeroF
  a3 := Config.zeroF
  ic1eq := Config.zeroF
  ic2eq := Config.zeroF
  out := Config.zeroF

/-- The power-on column of R47, and of R48 to R50 for the voice's units. -/
def Voice.reset : Voice where
  note := Config.zeroF
  saw := Config.zeroF
  period := Config.zeroF
  target := Config.zeroF
  glideRate := Config.zeroF
  panLeft := Config.panReset
  panRight := Config.panReset
  cutoff := Config.zeroF
  filterMod := Config.zeroF
  filterQ := Config.oneF
  pitchBend := Config.oneF
  filterEnvDepth := Config.zeroF
  voiceOut := Config.zeroF
  cutoffMod := Config.zeroF
  osc0 := Oscillator.reset
  osc1 := Oscillator.reset
  env0 := Envelope.reset
  env1 := Envelope.reset
  filt := Filter.reset

/-- Eight voices after power-on. -/
def Voices.reset : Voices where
  v0 := Voice.reset
  v1 := Voice.reset
  v2 := Voice.reset
  v3 := Voice.reset
  v4 := Voice.reset
  v5 := Voice.reset
  v6 := Voice.reset
  v7 := Voice.reset

/-- The power-on column of R45. -/
def Globals.reset : Globals where
  ill := false
  cause := 0
  mono := false
  sampleRate := Config.sampleRate0
  noiseSeed := Config.noiseSeed0
  noiseOut := Config.zeroF
  noiseMix := Config.zeroF
  illWord := Config.zeroF
  lfoPhase := Config.zeroF
  lfoInc := Config.zeroF
  lfoStep := Config.zeroF
  lfoSine := Config.zeroF
  vibratoMod := Config.oneF
  pwmMod := Config.oneF
  filterZip := Config.zeroF
  modWheel := Config.zeroF
  vibrato := Config.zeroF
  pwmDepth := Config.zeroF
  filterKeytrack := Config.zeroF
  filterCtl := Config.zeroF
  filterLfoDepth := Config.zeroF
  pressure := Config.zeroF
  lfoFmod := Config.zeroF
  pitchBend := Config.oneF
  detune := Config.oneF
  glideRate := Config.oneF
  filterQ := Config.oneF
  resonanceCtl := Config.oneF
  filterEnvDepth := Config.zeroF
  gainCur := Config.zeroF
  gainTarget := Config.zeroF
  gainStep := Config.zeroF
  gainCount := Config.zeroF
  gainSteps := Config.zeroF
  gainOut := Config.zeroF
  mixL := Config.zeroF
  mixR := Config.zeroF
  outL := Config.zeroF
  outR := Config.zeroF

/-- The decoder after `RST` (R58, R360). -/
def Dec.reset : Dec where
  need := 0
  cmd := 0
  data0 := 0
  data1 := 0
  src := 0

/-- The state right after the power-on reset (R360): no packet has been sent yet. -/
def State.reset : State where
  g := Globals.reset
  voices := Voices.reset
  dec := Dec.reset
  inputs := []
  response := none
  freeDraws := 0
  noiseMap := Config.noiseMapDefault

end Sys2Proof.Machine
end

