-- ==== Sys2Proof/Machine/Flags.lean ====
section
/-! DEFINITION. The comparisons of R15 and every condition the core computes from its registers: the two flags of
`ENV_STATUS` (R54), the word `STATUS` reads as (R52), and the envelope stages (R190). -/

namespace Sys2Proof.Machine

/-! ### IEEE ordered comparisons (R15) -/

/-- The place of a pattern in the order of the numbers: none for a NaN, 0 for both zeros (R15), and sign and magnitude
otherwise. A subnormal operand is read as `DENORMAL_MODE` says (R14). -/
def orderKey (a : Word) : Option Int :=
  if isNaN a then none
  else
    let b := flushSubnormal a
    some (signedInt (signBit b) (b.toNat % 2 ^ 31))

/-- `a < b`. -/
def flt (a b : Word) : Bool :=
  match orderKey a, orderKey b with
  | some x, some y => decide (x < y)
  | _, _ => false

/-- `a <= b`. -/
def fle (a b : Word) : Bool :=
  match orderKey a, orderKey b with
  | some x, some y => decide (x ≤ y)
  | _, _ => false

/-- `a > b`. -/
def fgt (a b : Word) : Bool := flt b a

/-- `a >= b`. -/
def fge (a b : Word) : Bool := fle b a

/-- `a == b`. -/
def feq (a b : Word) : Bool :=
  match orderKey a, orderKey b with
  | some x, some y => decide (x = y)
  | _, _ => false

/-- `clamp(v, lo, hi) = (v < lo) ? lo : ((hi < v) ? hi : v)` (R15): a NaN `v` passes. -/
def clamp (v lo hi : Word) : Word := if flt v lo then lo else if flt hi v then hi else v

/-! ### Envelope flags (R54) -/

/-- `ACTIVE`: `level > SILENCE`. -/
def envActive (e : Envelope) : Bool := fgt e.level Config.silence

/-- `IN_ATTACK`: `target >= 2.0`. -/
def envInAttack (e : Envelope) : Bool := fge e.target Config.attackTarget

/-- The word `ENV_STATUS` reads as: bit 0 `ACTIVE`, bit 1 `IN_ATTACK`, the rest 0. -/
def envStatusWord (e : Envelope) : Word := 0#30 ++ BitVec.ofBool (envInAttack e) ++ BitVec.ofBool (envActive e)

/-- A voice is active iff its amplitude envelope is (R18, R54). -/
def voiceActive (vo : Voice) : Bool := envActive vo.env0

/-! ### STATUS and CTRL (R52, R53) -/

/-- The word `STATUS` reads as: bit 0 `ILL`, bits 7:4 `CAUSE`, the rest 0. -/
def statusWord (g : Globals) : Word := 0#24 ++ g.cause ++ 0#3 ++ BitVec.ofBool g.ill

/-- The word `CTRL` reads as: bit 0 `MONO`, the rest 0. -/
def ctrlWord (g : Globals) : Word := 0#31 ++ BitVec.ofBool g.mono

/-! ### Envelope stages (R190): a reading of the registers that no other rule depends on -/

/-- The four stages. -/
inductive Stage
  | idle | attack | decaySustain | release
  deriving DecidableEq, Repr

/-- Whether the registers read as a stage. Decay/Sustain and Release are told apart by the values of `target` and
`multiplier` alone, so both can hold at once, and neither does after a host write of other values (R190). -/
def stageReads (e : Envelope) : Stage → Bool
  | .attack => envInAttack e
  | .idle => !envInAttack e && !envActive e
  | .decaySustain => !envInAttack e && envActive e && e.target == e.sustainLevel && e.multiplier == e.decayMul
  | .release => !envInAttack e && envActive e && e.target == Config.zeroF && e.multiplier == e.releaseMul

/-! ### Signed comparison of int32 registers (R17) -/

/-- `n <= 0` as int32. -/
def nonPositive (n : Word) : Bool := decide (n.toInt ≤ 0)

/-- `n > 0` as int32. -/
def positive (n : Word) : Bool := decide (0 < n.toInt)

end Sys2Proof.Machine
end

