-- ==== Sys2Proof/Machine/Operands.lean ====
section
/-! DEFINITION. The operand forms: a unit selected by V and U (R132), and a register selected by its address (R43 to
R50, R57). -/

namespace Sys2Proof.Machine

/-! ### Unit selection (R132) -/

/-- `voice[v]`. -/
def Voices.get (vs : Voices) (v : Fin 8) : Voice :=
  match v with
  | 0 => vs.v0
  | 1 => vs.v1
  | 2 => vs.v2
  | 3 => vs.v3
  | 4 => vs.v4
  | 5 => vs.v5
  | 6 => vs.v6
  | 7 => vs.v7

/-- `voice[v] <- vo`. -/
def Voices.set (vs : Voices) (v : Fin 8) (vo : Voice) : Voices :=
  match v with
  | 0 => { vs with v0 := vo }
  | 1 => { vs with v1 := vo }
  | 2 => { vs with v2 := vo }
  | 3 => { vs with v3 := vo }
  | 4 => { vs with v4 := vo }
  | 5 => { vs with v5 := vo }
  | 6 => { vs with v6 := vo }
  | 7 => { vs with v7 := vo }

/-- `for v in 0..7: voice[v] <- f voice[v]`, for a step on one voice that reads no other voice, so that the order of the
voices does not matter (R300: "The voices are independent"). -/
def Voices.map (f : Voice → Voice) (vs : Voices) : Voices where
  v0 := f vs.v0
  v1 := f vs.v1
  v2 := f vs.v2
  v3 := f vs.v3
  v4 := f vs.v4
  v5 := f vs.v5
  v6 := f vs.v6
  v7 := f vs.v7

/-- The voices in ascending order. -/
def Voices.toList (vs : Voices) : List Voice := [vs.v0, vs.v1, vs.v2, vs.v3, vs.v4, vs.v5, vs.v6, vs.v7]

/-- `osc[u]` of a voice. -/
def Voice.osc (vo : Voice) (u : Fin 2) : Oscillator :=
  match u with
  | 0 => vo.osc0
  | 1 => vo.osc1

/-- `osc[u] <- o` of a voice. -/
def Voice.setOsc (vo : Voice) (u : Fin 2) (o : Oscillator) : Voice :=
  match u with
  | 0 => { vo with osc0 := o }
  | 1 => { vo with osc1 := o }

/-- `env[u]` of a voice. -/
def Voice.env (vo : Voice) (u : Fin 2) : Envelope :=
  match u with
  | 0 => vo.env0
  | 1 => vo.env1

/-- `env[u] <- e` of a voice. -/
def Voice.setEnv (vo : Voice) (u : Fin 2) (e : Envelope) : Voice :=
  match u with
  | 0 => { vo with env0 := e }
  | 1 => { vo with env1 := e }

/-! ### The register map -/

/-- The register `regs[n - base]` of a run of registers that starts at `base`, if `n` is in the run. -/
def inRun {α : Type} (base : Nat) (regs : List α) (n : Nat) : Option α :=
  if n < base then none else regs[n - base]?

/-- Globals 0x00 to 0x07 (R45). -/
def runMain : List GReg := [
  .id, .status, .ctrl, .sampleRate, .noiseSeed, .noiseOut, .noiseMix, .illWord]

/-- Globals 0x10 to 0x1E. -/
def runLfo : List GReg := [
  .lfoPhase, .lfoInc, .lfoStep, .lfoSine, .vibratoMod, .pwmMod, .filterZip, .modWheel, .vibrato, .pwmDepth,
  .filterKeytrack, .filterCtl, .filterLfoDepth, .pressure, .lfoFmod]

/-- Globals 0x20 to 0x25. -/
def runParam : List GReg := [
  .pitchBend, .detune, .glideRate, .filterQ, .resonanceCtl, .filterEnvDepth]

/-- Globals 0x30 to 0x35. -/
def runGain : List GReg := [
  .gainCur, .gainTarget, .gainStep, .gainCount, .gainSteps, .gainOut]

/-- Globals 0x38 to 0x3B. -/
def runOut : List GReg := [
  .mixL, .mixR, .outL, .outR]

/-- The voice record, voice offsets 0x00 to 0x0D (R47). -/
def runVoice : List VReg := [
  .note, .saw, .period, .target, .glideRate, .panLeft, .panRight, .cutoff, .filterMod, .filterQ, .pitchBend,
  .filterEnvDepth, .voiceOut, .cutoffMod]

/-- The filter, voice offsets 0x10 to 0x17 (R50). -/
def runFilter : List FReg := [
  .g, .k, .a1, .a2, .a3, .ic1eq, .ic2eq, .out]

/-- An oscillator, offsets 0x0 to 0xA of its sixteen words (R48). -/
def runOsc : List OReg := [
  .period, .amplitude, .modulation, .phase, .phaseMax, .phaseInc, .sin0, .sin1, .dsin, .dcOffset, .out]

/-- An envelope, offsets 0x0 to 0x7 of its sixteen words (R49). -/
def runEnv : List EReg := [
  .level, .target, .multiplier, .attackMul, .decayMul, .sustainLevel, .releaseMul, .status]

/-- The global register at a word address below 0x0040 (R45). -/
def globalAt (n : Nat) : Option GReg :=
  if n < 0x10 then inRun 0x00 runMain n
  else if n < 0x20 then inRun 0x10 runLfo n
  else if n < 0x30 then inRun 0x20 runParam n
  else if n < 0x38 then inRun 0x30 runGain n
  else inRun 0x38 runOut n

/-- The register of voice `v` at an offset of its window (R46). -/
def voiceRegAt (v : Fin 8) (off : Nat) : Option Reg :=
  if off < 0x10 then (inRun 0x00 runVoice off).map (.voice v)
  else if off < 0x20 then (inRun 0x10 runFilter off).map (.filt v)
  else if off < 0x30 then (inRun 0x20 runOsc off).map (.osc v 0)
  else if off < 0x40 then (inRun 0x30 runOsc off).map (.osc v 1)
  else if off < 0x50 then (inRun 0x40 runEnv off).map (.env v 0)
  else (inRun 0x50 runEnv off).map (.env v 1)

/-- The register at an address, or none where the address is unmapped (R57). Voice `v` has the window
`0x0100 + 0x80*v` to `+ 0x7F` (R46). -/
def regAt (a : Addr) : Option Reg :=
  let n := a.toNat
  if n < 0x100 then (globalAt n).map .glob
  else if n < 0x500 then voiceRegAt ⟨(n - 0x100) / 0x80 % 8, Nat.mod_lt _ (by decide)⟩ ((n - 0x100) % 0x80)
  else none

/-! ### Addresses by name (R45 to R51, R151) -/

/-- The address column of R45. -/
def GReg.addr : GReg → Nat
  | .id => 0x00 | .status => 0x01 | .ctrl => 0x02 | .sampleRate => 0x03 | .noiseSeed => 0x04
  | .noiseOut => 0x05 | .noiseMix => 0x06 | .illWord => 0x07 | .lfoPhase => 0x10 | .lfoInc => 0x11
  | .lfoStep => 0x12 | .lfoSine => 0x13 | .vibratoMod => 0x14 | .pwmMod => 0x15 | .filterZip => 0x16
  | .modWheel => 0x17 | .vibrato => 0x18 | .pwmDepth => 0x19 | .filterKeytrack => 0x1A | .filterCtl => 0x1B
  | .filterLfoDepth => 0x1C | .pressure => 0x1D | .lfoFmod => 0x1E | .pitchBend => 0x20 | .detune => 0x21
  | .glideRate => 0x22 | .filterQ => 0x23 | .resonanceCtl => 0x24 | .filterEnvDepth => 0x25 | .gainCur => 0x30
  | .gainTarget => 0x31 | .gainStep => 0x32 | .gainCount => 0x33 | .gainSteps => 0x34 | .gainOut => 0x35
  | .mixL => 0x38 | .mixR => 0x39 | .outL => 0x3A | .outR => 0x3B

/-- The offset column of R47. -/
def VReg.offset : VReg → Nat
  | .note => 0x0 | .saw => 0x1 | .period => 0x2 | .target => 0x3 | .glideRate => 0x4 | .panLeft => 0x5
  | .panRight => 0x6 | .cutoff => 0x7 | .filterMod => 0x8 | .filterQ => 0x9 | .pitchBend => 0xA
  | .filterEnvDepth => 0xB | .voiceOut => 0xC | .cutoffMod => 0xD

/-- The offset column of R48. -/
def OReg.offset : OReg → Nat
  | .period => 0x0 | .amplitude => 0x1 | .modulation => 0x2 | .phase => 0x3 | .phaseMax => 0x4
  | .phaseInc => 0x5 | .sin0 => 0x6 | .sin1 => 0x7 | .dsin => 0x8 | .dcOffset => 0x9 | .out => 0xA

/-- The offset column of R49. -/
def EReg.offset : EReg → Nat
  | .level => 0x0 | .target => 0x1 | .multiplier => 0x2 | .attackMul => 0x3 | .decayMul => 0x4
  | .sustainLevel => 0x5 | .releaseMul => 0x6 | .status => 0x7

/-- The offset column of R50. -/
def FReg.offset : FReg → Nat
  | .g => 0x0 | .k => 0x1 | .a1 => 0x2 | .a2 => 0x3 | .a3 => 0x4 | .ic1eq => 0x5 | .ic2eq => 0x6 | .out => 0x7

/-- `B(v) = 0x0100 + 0x80*v` (R46). -/
def voiceBase (v : Fin 8) : Nat := 0x100 + 0x80 * v.val

/-- The word address of a register. -/
def Reg.addr : Reg → Addr
  | .glob r => BitVec.ofNat 16 r.addr
  | .voice v r => BitVec.ofNat 16 (voiceBase v + r.offset)
  | .osc v u r => BitVec.ofNat 16 (voiceBase v + 0x20 + 0x10 * u.val + r.offset)
  | .env v u r => BitVec.ofNat 16 (voiceBase v + 0x40 + 0x10 * u.val + r.offset)
  | .filt v r => BitVec.ofNat 16 (voiceBase v + 0x10 + r.offset)

/-! ### Access (R44) -/

/-- The access column of R45: RO. -/
def GReg.readOnly : GReg → Bool
  | .id | .noiseOut | .illWord | .lfoSine | .vibratoMod | .pwmMod | .lfoFmod | .gainCur | .gainTarget
  | .gainStep | .gainCount | .gainOut | .mixL | .mixR | .outL | .outR => true
  | .status | .ctrl | .sampleRate | .noiseSeed | .noiseMix | .lfoPhase | .lfoInc | .lfoStep | .filterZip
  | .modWheel | .vibrato | .pwmDepth | .filterKeytrack | .filterCtl | .filterLfoDepth | .pressure | .pitchBend
  | .detune | .glideRate | .filterQ | .resonanceCtl | .filterEnvDepth | .gainSteps => false

/-- Access RO in R45 to R50, `ENV_STATUS` included (R341). -/
def Reg.readOnly : Reg → Bool
  | .glob r => r.readOnly
  | .voice _ r => r == .voiceOut || r == .cutoffMod
  | .osc _ _ r => r == .out
  | .env _ _ r => r == .status
  | .filt _ r => r == .out

end Sys2Proof.Machine
end

