-- ==== Sys2Proof/Machine/Ops.lean ====
section
/-! DEFINITION. The shared operations: changing one unit of the state, reading and writing a register by name, and the
illegal-command report (R342) with the clearing of it (R52), which are all the core has of taking and returning from
an exception (R340, R348, R349). -/

namespace Sys2Proof.Machine

/-! ### Changing one unit -/

/-- `voice[v]`. -/
def State.voice (s : State) (v : Fin 8) : Voice := s.voices.get v

/-- Changes the global registers. -/
def State.updGlobals (s : State) (f : Globals → Globals) : State := { s with g := f s.g }

/-- Changes voice `v`. -/
def State.updVoice (s : State) (v : Fin 8) (f : Voice → Voice) : State :=
  { s with voices := s.voices.set v (f (s.voices.get v)) }

/-- Changes every voice. -/
def State.mapVoices (s : State) (f : Voice → Voice) : State := { s with voices := s.voices.map f }

/-- Changes oscillator `u` of a voice. -/
def Voice.updOsc (vo : Voice) (u : Fin 2) (f : Oscillator → Oscillator) : Voice := vo.setOsc u (f (vo.osc u))

/-- Changes envelope `u` of a voice. -/
def Voice.updEnv (vo : Voice) (u : Fin 2) (f : Envelope → Envelope) : Voice := vo.setEnv u (f (vo.env u))

/-- Changes the filter of a voice. -/
def Voice.updFilt (vo : Voice) (f : Filter → Filter) : Voice := { vo with filt := f vo.filt }

/-! ### Reading a register (R44, R172) -/

/-- The word a global register reads as. -/
def readGlobal (g : Globals) : GReg → Word
  | .id => Config.idWord
  | .status => statusWord g
  | .ctrl => ctrlWord g
  | .sampleRate => g.sampleRate | .noiseSeed => g.noiseSeed | .noiseOut => g.noiseOut | .noiseMix => g.noiseMix
  | .illWord => g.illWord | .lfoPhase => g.lfoPhase | .lfoInc => g.lfoInc | .lfoStep => g.lfoStep
  | .lfoSine => g.lfoSine | .vibratoMod => g.vibratoMod | .pwmMod => g.pwmMod | .filterZip => g.filterZip
  | .modWheel => g.modWheel | .vibrato => g.vibrato | .pwmDepth => g.pwmDepth
  | .filterKeytrack => g.filterKeytrack | .filterCtl => g.filterCtl | .filterLfoDepth => g.filterLfoDepth
  | .pressure => g.pressure | .lfoFmod => g.lfoFmod | .pitchBend => g.pitchBend | .detune => g.detune
  | .glideRate => g.glideRate | .filterQ => g.filterQ | .resonanceCtl => g.resonanceCtl
  | .filterEnvDepth => g.filterEnvDepth | .gainCur => g.gainCur | .gainTarget => g.gainTarget
  | .gainStep => g.gainStep | .gainCount => g.gainCount | .gainSteps => g.gainSteps | .gainOut => g.gainOut
  | .mixL => g.mixL | .mixR => g.mixR | .outL => g.outL | .outR => g.outR

/-- The word a register of a voice record reads as. -/
def readVoice (vo : Voice) : VReg → Word
  | .note => vo.note | .saw => vo.saw | .period => vo.period | .target => vo.target
  | .glideRate => vo.glideRate | .panLeft => vo.panLeft | .panRight => vo.panRight | .cutoff => vo.cutoff
  | .filterMod => vo.filterMod | .filterQ => vo.filterQ | .pitchBend => vo.pitchBend
  | .filterEnvDepth => vo.filterEnvDepth | .voiceOut => vo.voiceOut | .cutoffMod => vo.cutoffMod

/-- The word a register of an oscillator reads as. -/
def readOsc (o : Oscillator) : OReg → Word
  | .period => o.period | .amplitude => o.amplitude | .modulation => o.modulation | .phase => o.phase
  | .phaseMax => o.phaseMax | .phaseInc => o.phaseInc | .sin0 => o.sin0 | .sin1 => o.sin1 | .dsin => o.dsin
  | .dcOffset => o.dcOffset | .out => o.out

/-- The word a register of an envelope reads as; `ENV_STATUS` is computed (R54). -/
def readEnv (e : Envelope) : EReg → Word
  | .level => e.level | .target => e.target | .multiplier => e.multiplier | .attackMul => e.attackMul
  | .decayMul => e.decayMul | .sustainLevel => e.sustainLevel | .releaseMul => e.releaseMul
  | .status => envStatusWord e

/-- The word a register of a filter reads as. -/
def readFilt (f : Filter) : FReg → Word
  | .g => f.g | .k => f.k | .a1 => f.a1 | .a2 => f.a2 | .a3 => f.a3 | .ic1eq => f.ic1eq | .ic2eq => f.ic2eq
  | .out => f.out

/-- `Reg(addr)` (R10): the word a register reads as. -/
def readReg (s : State) : Reg → Word
  | .glob r => readGlobal s.g r
  | .voice v r => readVoice (s.voice v) r
  | .osc v u r => readOsc ((s.voice v).osc u) r
  | .env v u r => readEnv ((s.voice v).env u) r
  | .filt v r => readFilt (s.voice v).filt r

/-! ### Writing a register (R44, R171) -/

/-- "If data bit 0 is 1, it clears ILL, CAUSE and ILL_WORD to 0. If data bit 0 is 0, it changes nothing" (R52). -/
def clearReport (value : Word) (g : Globals) : Globals :=
  if value.getLsbD 0 then { g with ill := false, cause := 0, illWord := 0 } else g

/-- Writes a global register. A read-only one is never written by a command (R44): nothing changes. -/
def writeGlobal (w : Word) (g : Globals) : GReg → Globals
  | .status => clearReport w g
  | .ctrl => { g with mono := w.getLsbD 0 }
  | .sampleRate => { g with sampleRate := w }
  | .noiseSeed => { g with noiseSeed := w }
  | .noiseMix => { g with noiseMix := w }
  | .lfoPhase => { g with lfoPhase := w }
  | .lfoInc => { g with lfoInc := w }
  | .lfoStep => { g with lfoStep := w }
  | .filterZip => { g with filterZip := w }
  | .modWheel => { g with modWheel := w }
  | .vibrato => { g with vibrato := w }
  | .pwmDepth => { g with pwmDepth := w }
  | .filterKeytrack => { g with filterKeytrack := w }
  | .filterCtl => { g with filterCtl := w }
  | .filterLfoDepth => { g with filterLfoDepth := w }
  | .pressure => { g with pressure := w }
  | .pitchBend => { g with pitchBend := w }
  | .detune => { g with detune := w }
  | .glideRate => { g with glideRate := w }
  | .filterQ => { g with filterQ := w }
  | .resonanceCtl => { g with resonanceCtl := w }
  | .filterEnvDepth => { g with filterEnvDepth := w }
  | .gainSteps => { g with gainSteps := w }
  | .id | .noiseOut | .illWord | .lfoSine | .vibratoMod | .pwmMod | .lfoFmod | .gainCur | .gainTarget
  | .gainStep | .gainCount | .gainOut | .mixL | .mixR | .outL | .outR => g

/-- Writes a register of a voice record. -/
def writeVoice (w : Word) (vo : Voice) : VReg → Voice
  | .note => { vo with note := w }
  | .saw => { vo with saw := w }
  | .period => { vo with period := w }
  | .target => { vo with target := w }
  | .glideRate => { vo with glideRate := w }
  | .panLeft => { vo with panLeft := w }
  | .panRight => { vo with panRight := w }
  | .cutoff => { vo with cutoff := w }
  | .filterMod => { vo with filterMod := w }
  | .filterQ => { vo with filterQ := w }
  | .pitchBend => { vo with pitchBend := w }
  | .filterEnvDepth => { vo with filterEnvDepth := w }
  | .voiceOut | .cutoffMod => vo

/-- Writes a register of an oscillator. -/
def writeOsc (w : Word) (o : Oscillator) : OReg → Oscillator
  | .period => { o with period := w }
  | .amplitude => { o with amplitude := w }
  | .modulation => { o with modulation := w }
  | .phase => { o with phase := w }
  | .phaseMax => { o with phaseMax := w }
  | .phaseInc => { o with phaseInc := w }
  | .sin0 => { o with sin0 := w }
  | .sin1 => { o with sin1 := w }
  | .dsin => { o with dsin := w }
  | .dcOffset => { o with dcOffset := w }
  | .out => o

/-- Writes a register of an envelope. -/
def writeEnv (w : Word) (e : Envelope) : EReg → Envelope
  | .level => { e with level := w }
  | .target => { e with target := w }
  | .multiplier => { e with multiplier := w }
  | .attackMul => { e with attackMul := w }
  | .decayMul => { e with decayMul := w }
  | .sustainLevel => { e with sustainLevel := w }
  | .releaseMul => { e with releaseMul := w }
  | .status => e

/-- Writes a register of a filter. -/
def writeFilt (w : Word) (f : Filter) : FReg → Filter
  | .g => { f with g := w }
  | .k => { f with k := w }
  | .a1 => { f with a1 := w }
  | .a2 => { f with a2 := w }
  | .a3 => { f with a3 := w }
  | .ic1eq => { f with ic1eq := w }
  | .ic2eq => { f with ic2eq := w }
  | .out => f

/-- `Reg(addr) <- w` (R10), with the fields of STATUS and CTRL as R52 and R53 say. -/
def writeReg (s : State) (w : Word) : Reg → State
  | .glob r => s.updGlobals (writeGlobal w · r)
  | .voice v r => s.updVoice v (writeVoice w · r)
  | .osc v u r => s.updVoice v (·.updOsc u (writeOsc w · r))
  | .env v u r => s.updVoice v (·.updEnv u (writeEnv w · r))
  | .filt v r => s.updVoice v (·.updFilt (writeFilt w · r))

/-! ### The illegal-command report (R342) -/

/-- The response port holds `w` (D6). -/
def State.respond (s : State) (w : Word) : State := { s with response := some w }

/-- What R342 does to the global registers: only the first illegal command since ILL was last 0 is recorded. -/
def recordIllegal (cause : BitVec 4) (w : Word) (g : Globals) : Globals :=
  if g.ill then g else { g with ill := true, cause := cause, illWord := w }

/-- `raise Illegal(cause)` with command word `w` (R11, R342), the one exception primitive: the report, a response of 0 if
`w` is a `REG_RD` (OP = 0x02), and nothing else. -/
def raiseIllegal (cause : BitVec 4) (w : Word) (s : State) : State :=
  let s := s.updGlobals (recordIllegal cause w)
  if opField w = 0x02 then s.respond 0 else s

end Sys2Proof.Machine
end

