-- ==== Sys2Proof/Machine/Envelope.lean ====
section
/-! DEFINITION. Envelope generator commands (R190 to R196). -/

namespace Sys2Proof.Machine

/-- `ENV_RESET` on one envelope (R191). -/
def envReset (e : Envelope) : Envelope :=
  { e with level := Config.zeroF, target := Config.zeroF, multiplier := Config.zeroF }

/-- `ENV_ATTACK` on one envelope (R192). -/
def envAttack (k : Nat) (e : Envelope) : Envelope :=
  { e with
    level := fadd k e.level (fadd k Config.silence Config.silence)
    target := Config.attackTarget
    multiplier := e.attackMul }

/-- `ENV_RELEASE` on one envelope (R193). -/
def envRelease (e : Envelope) : Envelope := { e with target := Config.zeroF, multiplier := e.releaseMul }

/-- The level after one step of the recurrence of R194: three rounded operations. -/
def envStep (k : Nat) (e : Envelope) : Word := fadd k (fmul k e.multiplier (fsub k e.level e.target)) e.target

/-- `env_next` (R194): the step, and the exit test on the new level and the old target. Its result is the new level. -/
def envNext (k : Nat) (e : Envelope) : Envelope :=
  let level := envStep k e
  if fgt (fadd k level e.target) Config.attackExit then
    { e with level := level, multiplier := e.decayMul, target := e.sustainLevel }
  else { e with level := level }

/-- `ENV_RESET vV, uU` (R191). -/
def execEnvReset (v : Fin 8) (u : Fin 2) (s : State) : Host.Outcome State Fault Refusal :=
  .next (s.updVoice v (·.updEnv u envReset))

/-- `ENV_ATTACK vV, uU` (R192). -/
def execEnvAttack (v : Fin 8) (u : Fin 2) (s : State) : Host.Outcome State Fault Refusal :=
  .next (s.updVoice v (·.updEnv u (envAttack s.freeDraws)))

/-- `ENV_RELEASE vV, uU` (R193). -/
def execEnvRelease (v : Fin 8) (u : Fin 2) (s : State) : Host.Outcome State Fault Refusal :=
  .next (s.updVoice v (·.updEnv u envRelease))

/-- `ENV_NEXT vV, uU` (R194). -/
def execEnvNext (v : Fin 8) (u : Fin 2) (s : State) : Host.Outcome State Fault Refusal :=
  .next (s.updVoice v (·.updEnv u (envNext s.freeDraws)))

end Sys2Proof.Machine
end

