-- ==== Sys2Proof/Machine/Filter.lean ====
section
/-! DEFINITION. State-variable filter commands (R230 to R234). -/

namespace Sys2Proof.Machine

/-- `FILT_RESET` on one filter (R231). -/
def filtReset (f : Filter) : Filter :=
  { f with
    g := Config.zeroF
    k := Config.zeroF
    a1 := Config.zeroF
    a2 := Config.zeroF
    a3 := Config.zeroF
    ic1eq := Config.zeroF
    ic2eq := Config.zeroF }

/-- The operand of `FTAN` in R232: `(PI_F * cutoff) / SAMPLE_RATE`. -/
def filtAngle (k : Nat) (sampleRate cutoff : Word) : Word := fdiv k (fmul k Config.piF cutoff) sampleRate

/-- The coefficients of R232 once `g` is known. -/
def filtCoefOf (k : Nat) (g q : Word) (f : Filter) : Filter :=
  let kk := fdiv k Config.oneF q
  let a1 := fdiv k Config.oneF (fadd k Config.oneF (fmul k g (fadd k g kk)))
  let a2 := fmul k g a1
  { f with g := g, k := kk, a1 := a1, a2 := a2, a3 := fmul k g a2 }

/-- `filt_coef` (R232). -/
def filtCoef (k : Nat) (sampleRate cutoff q : Word) (f : Filter) : Filter :=
  filtCoefOf k (ftan (filtAngle k sampleRate cutoff)) q f

/-- `filt_render` (R233). Its result is `FILT_OUT`. -/
def filtRender (k : Nat) (x : Word) (f : Filter) : Filter :=
  let v3 := fsub k x f.ic2eq
  let v1 := fadd k (fmul k f.a1 f.ic1eq) (fmul k f.a2 v3)
  let v2 := fadd k (fadd k f.ic2eq (fmul k f.a2 f.ic1eq)) (fmul k f.a3 v3)
  { f with
    ic1eq := fsub k (fmul k Config.twoF v1) f.ic1eq
    ic2eq := fsub k (fmul k Config.twoF v2) f.ic2eq
    out := v2 }

/-- `FILT_RESET vV` (R231). -/
def execFiltReset (v : Fin 8) (s : State) : Host.Outcome State Fault Refusal :=
  .next (s.updVoice v (·.updFilt filtReset))

/-- `FILT_COEF vV, cutoff, q` (R232). -/
def execFiltCoef (v : Fin 8) (cutoff q : Word) (s : State) : Host.Outcome State Fault Refusal :=
  .next (s.updVoice v (·.updFilt (filtCoef s.freeDraws s.g.sampleRate cutoff q)))

/-- `FILT_RENDER vV, x` (R233). -/
def execFiltRender (v : Fin 8) (x : Word) (s : State) : Host.Outcome State Fault Refusal :=
  .next (s.updVoice v (·.updFilt (filtRender s.freeDraws x)))

end Sys2Proof.Machine
end

