-- ==== Sys2Proof/Machine/Oscillator.lean ====
section
/-! DEFINITION. BLIT oscillator commands (R210 to R218). -/

namespace Sys2Proof.Machine

/-- `OSC_RESET` on one oscillator (R211). -/
def oscReset (o : Oscillator) : Oscillator :=
  { o with
    phase := Config.zeroF
    phaseInc := Config.zeroF
    sin0 := Config.zeroF
    sin1 := Config.zeroF
    dsin := Config.zeroF
    dcOffset := Config.zeroF }

/-- The half period of a restart, `hp <- (period / 2.0) * modulation` (R212). -/
def oscHalfPeriod (k : Nat) (o : Oscillator) : Word := fmul k (fdiv k o.period Config.twoF) o.modulation

/-- The half-integer cycle length of a restart, `L <- floor(0.5 + hp) - 0.5` (R212). -/
def oscCycleLength (k : Nat) (hp : Word) : Word := fsub k (ffloor (fadd k Config.halfF hp)) Config.halfF

/-- The restart branch of R212, once `phase_max`, `phase_inc` and `-phase` are known and with the values of `FSIN(phase)`,
`FSIN(phase - phase_inc)` and `FCOS(phase_inc)` as arguments. -/
def oscSeed (k : Nat) (dcOffset phaseMax phaseInc phase sinP sinQ cosD : Word) (o : Oscillator) : Oscillator :=
  let sin0 := fmul k o.amplitude sinP
  let y := if fgt (fmul k phase phase) Config.oscEps2 then fdiv k sin0 phase else o.amplitude
  { o with
    dcOffset := dcOffset
    phaseMax := phaseMax
    phaseInc := phaseInc
    phase := phase
    sin0 := sin0
    sin1 := fmul k o.amplitude sinQ
    dsin := fmul k Config.twoF cosD
    out := fsub k y dcOffset }

/-- The restart branch of R212, on the oscillator whose phase has been advanced. -/
def oscRestart (k : Nat) (o : Oscillator) : Oscillator :=
  let hp := oscHalfPeriod k o
  let len := oscCycleLength k hp
  let dcOffset := fdiv k (fmul k Config.halfF o.amplitude) len
  let phaseMax := fmul k len Config.piF
  let phaseInc := fdiv k phaseMax hp
  let phase := fneg o.phase
  oscSeed k dcOffset phaseMax phaseInc phase (fsin phase) (fsin (fsub k phase phaseInc))
    (fcos phaseInc) o

/-- The mirror of R212: past `phase_max` the phase turns back. -/
def oscMirror (k : Nat) (o : Oscillator) : Oscillator :=
  if fgt o.phase o.phaseMax then
    { o with phase := fsub k (fadd k o.phaseMax o.phaseMax) o.phase, phaseInc := fneg o.phaseInc }
  else o

/-- The resonator step and the output of a running cycle (R212). -/
def oscResonate (k : Nat) (o : Oscillator) : Oscillator :=
  let sinp := fsub k (fmul k o.dsin o.sin0) o.sin1
  { o with sin1 := o.sin0, sin0 := sinp, out := fsub k (fdiv k sinp o.phase) o.dcOffset }

/-- `osc_next` (R212): advance the phase, then restart, or mirror and step. Its result is `OSC_OUT`. -/
def oscNext (k : Nat) (o : Oscillator) : Oscillator :=
  let o := { o with phase := fadd k o.phase o.phaseInc }
  if fle o.phase Config.oscT then oscRestart k o else oscResonate k (oscMirror k o)

/-- `OSC_RESET vV, uU` (R211). -/
def execOscReset (v : Fin 8) (u : Fin 2) (s : State) : Host.Outcome State Fault Refusal :=
  .next (s.updVoice v (·.updOsc u oscReset))

/-- `OSC_NEXT vV, uU` (R212). -/
def execOscNext (v : Fin 8) (u : Fin 2) (s : State) : Host.Outcome State Fault Refusal :=
  .next (s.updVoice v (·.updOsc u (oscNext s.freeDraws)))

end Sys2Proof.Machine
end

