-- ==== Sys2Proof/Machine/Voice.lean ====
section
/-! DEFINITION. Voice commands (R250 to R255). -/

namespace Sys2Proof.Machine

/-- `VOICE_RESET` on one voice (R250). -/
def voiceReset (vo : Voice) : Voice :=
  { vo with
    note := 0
    saw := Config.zeroF
    osc0 := oscReset vo.osc0
    osc1 := oscReset vo.osc1
    env0 := envReset vo.env0
    env1 := envReset vo.env1
    filt := filtReset vo.filt
    panLeft := Config.panReset
    panRight := Config.panReset }

/-- The leaky integrator of R251: `((saw * LEAK) + s1) - s2`. -/
def sawStep (k : Nat) (saw s1 s2 : Word) : Word := fsub k (fadd k (fmul k saw Config.leak) s1) s2

/-- `voice_render` (R251): both oscillators, the integrator, the noise, the filter, the amplitude envelope. Its result is
`VOICE_OUT`. -/
def voiceRender (k : Nat) (noise : Word) (vo : Voice) : Voice :=
  let osc0 := oscNext k vo.osc0
  let osc1 := oscNext k vo.osc1
  let saw := sawStep k vo.saw osc0.out osc1.out
  let filt := filtRender k (fadd k saw noise) vo.filt
  let env0 := envNext k vo.env0
  { vo with
    osc0 := osc0
    osc1 := osc1
    saw := saw
    filt := filt
    env0 := env0
    voiceOut := fmul k filt.out env0.level }

/-- The modulated cutoff of R252, with the value of `FEXP` as an argument: scale, divide by the bend, clamp. -/
def cutoffOf (k : Nat) (cutoff expValue pitchBend : Word) : Word :=
  clamp (fdiv k (fmul k cutoff expValue) pitchBend) Config.cutoffMin Config.cutoffMax

/-- The portamento step of R252: `period + (glide_rate * (target - period))`. -/
def glideStep (k : Nat) (vo : Voice) : Word :=
  fadd k vo.period (fmul k vo.glideRate (fsub k vo.target vo.period))

/-- `voice_ctrl` (R252): portamento, filter envelope, modulated cutoff, filter coefficients. -/
def voiceCtrl (k : Nat) (sampleRate : Word) (vo : Voice) : Voice :=
  let env1 := envNext k vo.env1
  let expValue := fexp (fadd k vo.filterMod (fmul k vo.filterEnvDepth env1.level))
  let mc := cutoffOf k vo.cutoff expValue vo.pitchBend
  { vo with
    period := glideStep k vo
    env1 := env1
    cutoffMod := mc
    filt := filtCoef k sampleRate mc vo.filterQ vo.filt }

/-- The pan position of R253: `clamp((i2f(note) - 60.0) / 24.0, -1.0, 1.0)`. -/
def panPosition (k : Nat) (note : Word) : Word :=
  clamp (fdiv k (fsub k (i2f note) Config.panCenter) Config.panSpan) Config.minusOneF Config.oneF

/-- `VOICE_PAN` on one voice (R253). -/
def voicePan (k : Nat) (vo : Voice) : Voice :=
  let p := panPosition k vo.note
  { vo with
    panLeft := fsin (fmul k Config.piOver4F (fsub k Config.oneF p))
    panRight := fsin (fmul k Config.piOver4F (fadd k Config.oneF p)) }

/-- `voice_period` (R254), with the global `PITCH_BEND` and `DETUNE`. -/
def voicePeriod (k : Nat) (pitchBend detune : Word) (vo : Voice) : Voice :=
  let p0 := fmul k vo.period pitchBend
  { vo with
    osc0 := { vo.osc0 with period := p0 }
    osc1 := { vo.osc1 with period := fmul k p0 detune } }

/-- `VOICE_RESET vV` (R250). -/
def execVoiceReset (v : Fin 8) (s : State) : Host.Outcome State Fault Refusal := .next (s.updVoice v voiceReset)

/-- `VOICE_RENDER vV, noise_input` (R251). -/
def execVoiceRender (v : Fin 8) (noise : Word) (s : State) : Host.Outcome State Fault Refusal :=
  .next (s.updVoice v (voiceRender s.freeDraws noise))

/-- `VOICE_CTRL vV` (R252). -/
def execVoiceCtrl (v : Fin 8) (s : State) : Host.Outcome State Fault Refusal :=
  .next (s.updVoice v (voiceCtrl s.freeDraws s.g.sampleRate))

/-- `VOICE_PAN vV` (R253). -/
def execVoicePan (v : Fin 8) (s : State) : Host.Outcome State Fault Refusal :=
  .next (s.updVoice v (voicePan s.freeDraws))

/-- `VOICE_PERIOD vV` (R254). -/
def execVoicePeriod (v : Fin 8) (s : State) : Host.Outcome State Fault Refusal :=
  .next (s.updVoice v (voicePeriod s.freeDraws s.g.pitchBend s.g.detune))

end Sys2Proof.Machine
end

