-- ==== Sys2Proof/Machine/Lfo.lean ====
section
/-! DEFINITION. LFO commands (R290 to R294, R300). -/

namespace Sys2Proof.Machine

/-- `LFO_RESET` on the globals (R290). -/
def lfoReset (g : Globals) : Globals :=
  { g with lfoPhase := Config.zeroF, lfoStep := 0, filterZip := Config.zeroF }

/-- The phase of a firing tick (R291): advanced, and wrapped once if above pi. -/
def lfoAdvance (k : Nat) (g : Globals) : Word :=
  let p := fadd k g.lfoPhase g.lfoInc
  if fgt p Config.piF then fsub k p Config.twoPiF else p

/-- The modulation values of a firing tick (R291), with the new phase and the value of `FSIN` at it as arguments. -/
def lfoModulate (k : Nat) (phase sine : Word) (g : Globals) : Globals :=
  let fmod := fadd k (fadd k g.filterKeytrack g.filterCtl) (fmul k (fadd k g.filterLfoDepth g.pressure) sine)
  { g with
    lfoStep := Config.lfoMax
    lfoPhase := phase
    lfoSine := sine
    vibratoMod := fadd k Config.oneF (fmul k sine (fadd k g.modWheel g.vibrato))
    pwmMod := fadd k Config.oneF (fmul k sine (fadd k g.modWheel g.pwmDepth))
    lfoFmod := fmod
    filterZip := fadd k g.filterZip (fmul k Config.zipCoef (fsub k fmod g.filterZip)) }

/-- A firing tick on the globals (R291). -/
def lfoFire (k : Nat) (g : Globals) : Globals :=
  let phase := lfoAdvance k g
  lfoModulate k phase (fsin phase) g

/-- `lfo_push()` on one voice (R300): an inactive voice is left alone. -/
def lfoPushVoice (k : Nat) (g : Globals) (vo : Voice) : Voice :=
  if voiceActive vo then
    let vo := { vo with
      osc0 := { vo.osc0 with modulation := g.vibratoMod }
      osc1 := { vo.osc1 with modulation := g.pwmMod }
      filterMod := g.filterZip }
    voicePeriod k g.pitchBend g.detune (voiceCtrl k g.sampleRate vo)
  else vo

/-- `lfo_push()` (R300): the modulation goes to every active voice. -/
def lfoPush (k : Nat) (s : State) : State := s.mapVoices (lfoPushVoice k s.g)

/-- `lfo_tick()` (R291): count down, and fire at 0 or below. -/
def lfoTick (k : Nat) (s : State) : State :=
  let step := s.g.lfoStep - 1
  if nonPositive step then lfoPush k (s.updGlobals (lfoFire k))
  else s.updGlobals ({ · with lfoStep := step })

/-- `LFO_RESET` (R290). -/
def execLfoReset (s : State) : Host.Outcome State Fault Refusal := .next (s.updGlobals lfoReset)

/-- `LFO_TICK` (R291). -/
def execLfoTick (s : State) : Host.Outcome State Fault Refusal := .next (lfoTick s.freeDraws s)

end Sys2Proof.Machine
end

