-- ==== Sys2Proof/Machine/Noise.lean ====
section
/-! DEFINITION. Noise generator commands (R280 to R283). -/

namespace Sys2Proof.Machine

/-- `NOISE_RESET` on the globals (R280). -/
def noiseReset (g : Globals) : Globals := { g with noiseSeed := Config.noiseSeed0 }

/-- The recurrence of R281, in u32 arithmetic. -/
def noiseStep (seed : Word) : Word := Config.noiseA * seed + Config.noiseC

/-- The int32 numerator of R281's output map: `2*u + 1 - 2^24` for the top 24 bits `u` of the seed, or `t - 2^24` for its
top 25 bits `t`. -/
def noiseNumerator (m : NoiseMap) (seed : Word) : Word :=
  match m with
  | .openInterval => 2 * (seed >>> 8) + 1 - 16777216
  | .upstream => (seed >>> 7) - 16777216

/-- The output of R281: the numerator over 2^24. -/
def noiseValue (k : Nat) (m : NoiseMap) (seed : Word) : Word := fdiv k (i2f (noiseNumerator m seed)) Config.twoPow24F

/-- `noise_next` (R281) of a core with the output map `m`. Its result is `NOISE_OUT`. -/
def noiseNext (k : Nat) (m : NoiseMap) (g : Globals) : Globals :=
  let seed := noiseStep g.noiseSeed
  { g with noiseSeed := seed, noiseOut := noiseValue k m seed }

/-- `NOISE_RESET` (R280). -/
def execNoiseReset (s : State) : Host.Outcome State Fault Refusal := .next (s.updGlobals noiseReset)

/-- `NOISE_NEXT` (R281). -/
def execNoiseNext (s : State) : Host.Outcome State Fault Refusal :=
  .next (s.updGlobals (noiseNext s.freeDraws s.noiseMap))

end Sys2Proof.Machine
end

