-- ==== Sys2Proof/Machine/MixerGain.lean ====
section
/-! DEFINITION. Master gain, mixer and sequencing commands (R310 to R324). -/

namespace Sys2Proof.Machine

/-! ### The gain smoother -/

/-- `GAIN_RESET` on the globals (R314). -/
def gainReset (g : Globals) : Globals := { g with gainCur := g.gainTarget, gainCount := 0 }

/-- `GAIN_SET` on the globals (R311): nothing for the target it has, a snap without a ramp length, else a new ramp. -/
def gainSet (k : Nat) (x : Word) (g : Globals) : Globals :=
  if feq x g.gainTarget then g
  else if nonPositive g.gainSteps then { g with gainCur := x, gainTarget := x, gainCount := 0 }
  else
    { g with
      gainTarget := x
      gainCount := g.gainSteps
      gainStep := fdiv k (fsub k x g.gainCur) (i2f g.gainSteps) }

/-- `gain_next()` (R312). Its result is `GAIN_OUT`. -/
def gainNext (k : Nat) (g : Globals) : Globals :=
  if nonPositive g.gainCount then { g with gainOut := g.gainTarget }
  else
    let count := g.gainCount - 1
    let cur := if positive count then fadd k g.gainCur g.gainStep else g.gainTarget
    { g with gainCount := count, gainCur := cur, gainOut := cur }

/-! ### Block and sample sequencing -/

/-- `BLOCK_BEGIN` on one voice (R320): latch the per-block values if it is active. -/
def blockBeginVoice (k : Nat) (g : Globals) (vo : Voice) : Voice :=
  if voiceActive vo then
    { voicePeriod k g.pitchBend g.detune vo with
      glideRate := g.glideRate
      filterQ := fmul k g.filterQ g.resonanceCtl
      pitchBend := g.pitchBend
      filterEnvDepth := g.filterEnvDepth }
  else vo

/-- `BLOCK_END` on one voice (R323): free it if it is inactive, a NaN level included. -/
def blockEndVoice (vo : Voice) : Voice :=
  if voiceActive vo then vo else { vo with env0 := envReset vo.env0, filt := filtReset vo.filt }

/-- One voice's part in `SAMPLE` (R321): an active voice is rendered. -/
def sampleVoice (k : Nat) (noise : Word) (vo : Voice) : Voice :=
  if voiceActive vo then voiceRender k noise vo else vo

/-- One voice's part in the sums of R321: an active voice adds its sample, weighted by its pan gains. -/
def mixVoice (k : Nat) (noise : Word) (acc : Word × Word) (vo : Voice) : Word × Word :=
  if voiceActive vo then
    let s := (voiceRender k noise vo).voiceOut
    (fadd k acc.1 (fmul k s vo.panLeft), fadd k acc.2 (fmul k s vo.panRight))
  else acc

/-- The sums L and R of R321, from +0, one rounded addition for each active voice, in ascending voice order (D26). -/
def mixVoices (k : Nat) (noise : Word) (vs : Voices) : Word × Word :=
  vs.toList.foldl (mixVoice k noise) (Config.zeroF, Config.zeroF)

/-- `mono_fold(L, R)` (R322). -/
def monoFold (k : Nat) (l r : Word) (g : Globals) : Globals :=
  if g.mono then { g with outL := fmul k (fadd k l r) Config.halfF, outR := Config.zeroF }
  else { g with outL := l, outR := r }

/-- The end of `SAMPLE` (R321): the sums go to `MIX_L` and `MIX_R`, the gain advances, and the scaled sums go out. -/
def sampleOut (k : Nat) (l r : Word) (g : Globals) : Globals :=
  let g := gainNext k { g with mixL := l, mixR := r }
  monoFold k (fmul k l g.gainOut) (fmul k r g.gainOut) g

/-- `SAMPLE` (R321). -/
def sampleStep (k : Nat) (s : State) : State :=
  let s := lfoTick k s
  let s := s.updGlobals (noiseNext k s.noiseMap)
  let noise := fmul k s.g.noiseOut s.g.noiseMix
  let mix := mixVoices k noise s.voices
  (s.mapVoices (sampleVoice k noise)).updGlobals (sampleOut k mix.1 mix.2)

/-! ### Core reset -/

/-- What `CORE_RESET` does to the globals (R324). -/
def coreResetGlobals (g : Globals) : Globals :=
  gainReset { lfoReset { noiseReset g with pitchBend := Config.oneF } with
    modWheel := Config.zeroF
    pressure := Config.zeroF
    filterCtl := Config.zeroF
    resonanceCtl := Config.oneF }

/-! ### The commands -/

/-- `GAIN_RESET` (R314). -/
def execGainReset (s : State) : Host.Outcome State Fault Refusal := .next (s.updGlobals gainReset)

/-- `GAIN_SET target` (R311). -/
def execGainSet (target : Word) (s : State) : Host.Outcome State Fault Refusal :=
  .next (s.updGlobals (gainSet s.freeDraws target))

/-- `GAIN_NEXT` (R312). -/
def execGainNext (s : State) : Host.Outcome State Fault Refusal := .next (s.updGlobals (gainNext s.freeDraws))

/-- `BLOCK_BEGIN` (R320). -/
def execBlockBegin (s : State) : Host.Outcome State Fault Refusal :=
  .next (s.mapVoices (blockBeginVoice s.freeDraws s.g))

/-- `SAMPLE` (R321). -/
def execSample (s : State) : Host.Outcome State Fault Refusal := .next (sampleStep s.freeDraws s)

/-- `BLOCK_END` (R323). -/
def execBlockEnd (s : State) : Host.Outcome State Fault Refusal := .next (s.mapVoices blockEndVoice)

/-- `CORE_RESET` (R324). -/
def execCoreReset (s : State) : Host.Outcome State Fault Refusal :=
  .next ((s.mapVoices voiceReset).updGlobals coreResetGlobals)

end Sys2Proof.Machine
end

