-- ==== Sys2Proof/Machine/RegAccess.lean ====
section
/-! DEFINITION. Register access commands (R170 to R172). -/

namespace Sys2Proof.Machine

/-- `NOP` (R170): nothing. -/
def execNop (s : State) : Host.Outcome State Fault Refusal := .next s

/-- `REG_WR A, value` (R171): cause 3 if unmapped, cause 4 if read-only, else the write. The command word is the one
`encodeCmd` gives, since V, U and Z are 0 in a `REG_WR` that executes (log entry 9). -/
def regWrite (a : Addr) (value : Word) (s : State) : State :=
  match regAt a with
  | none => raiseIllegal 3 (encodeCmd (.regWr a value)) s
  | some r => if r.readOnly then raiseIllegal 4 (encodeCmd (.regWr a value)) s else writeReg s value r

/-- `REG_WR` (R171). -/
def execRegWr (a : Addr) (value : Word) (s : State) : Host.Outcome State Fault Refusal := .next (regWrite a value s)

/-- `REG_RD A` (R172): the response word, or cause 3 and the response 0 (R342) if unmapped. -/
def regRead (a : Addr) (s : State) : State :=
  match regAt a with
  | none => raiseIllegal 3 (encodeCmd (.regRd a)) s
  | some r => s.respond (readReg s r)

/-- `REG_RD` (R172). -/
def execRegRd (a : Addr) (s : State) : Host.Outcome State Fault Refusal := .next (regRead a s)

end Sys2Proof.Machine
end

