-- ==== Sys2Proof/Machine/Dispatch.lean ====
section
/-! DEFINITION. One arm for each command: its meaning. -/

namespace Sys2Proof.Machine

def exec (i : Instr) (s : State) : Host.Outcome State Fault Refusal :=
  match i with
  | .nop => Sys2Proof.Machine.execNop s
  | .regWr a value => Sys2Proof.Machine.execRegWr a value s
  | .regRd a => Sys2Proof.Machine.execRegRd a s
  | .coreReset => Sys2Proof.Machine.execCoreReset s
  | .voiceReset v => Sys2Proof.Machine.execVoiceReset v s
  | .envReset v u => Sys2Proof.Machine.execEnvReset v u s
  | .envAttack v u => Sys2Proof.Machine.execEnvAttack v u s
  | .envRelease v u => Sys2Proof.Machine.execEnvRelease v u s
  | .envNext v u => Sys2Proof.Machine.execEnvNext v u s
  | .oscReset v u => Sys2Proof.Machine.execOscReset v u s
  | .oscNext v u => Sys2Proof.Machine.execOscNext v u s
  | .filtReset v => Sys2Proof.Machine.execFiltReset v s
  | .filtCoef v cutoff q => Sys2Proof.Machine.execFiltCoef v cutoff q s
  | .filtRender v x => Sys2Proof.Machine.execFiltRender v x s
  | .voiceRender v noise => Sys2Proof.Machine.execVoiceRender v noise s
  | .voiceCtrl v => Sys2Proof.Machine.execVoiceCtrl v s
  | .voicePan v => Sys2Proof.Machine.execVoicePan v s
  | .voicePeriod v => Sys2Proof.Machine.execVoicePeriod v s
  | .noiseReset => Sys2Proof.Machine.execNoiseReset s
  | .noiseNext => Sys2Proof.Machine.execNoiseNext s
  | .lfoReset => Sys2Proof.Machine.execLfoReset s
  | .lfoTick => Sys2Proof.Machine.execLfoTick s
  | .gainReset => Sys2Proof.Machine.execGainReset s
  | .gainSet target => Sys2Proof.Machine.execGainSet target s
  | .gainNext => Sys2Proof.Machine.execGainNext s
  | .blockBegin => Sys2Proof.Machine.execBlockBegin s
  | .sample => Sys2Proof.Machine.execSample s
  | .blockEnd => Sys2Proof.Machine.execBlockEnd s

end Sys2Proof.Machine
end

