-- ==== Sys2Proof/Machine/Fetch.lean ====
section
/-! DEFINITION. The command decoder (R58): how words on the port become a packet, one word at a time. -/

namespace Sys2Proof.Machine

/-- What one word on the port makes of the decoder. -/
inductive Taken
  /-- More data words are needed. -/
  | collecting (d : Dec)
  /-- A packet is complete: its command runs. -/
  | run (i : Instr) (d : Dec)
  /-- The command word `w` is illegal by cause 1 or 2, and takes no data words (R58). -/
  | illegal (r : Reject) (w : Word) (d : Dec)
  /-- A second host's word came inside a packet (R109). -/
  | interleaved
  deriving DecidableEq, Repr

/-- Runs a complete packet. -/
def Dec.finish (d : Dec) (w d0 d1 : Word) : Taken :=
  match decodeCmd w d0 d1 with
  | .ok i => .run i d
  | .error r => .illegal r w d

/-- Stores a data word: the first one in `data[0]`, the second in `data[1]`; one fewer is needed (R58). -/
def Dec.store (d : Dec) (w : Word) : Dec :=
  if dataWords d.cmd ≤ d.need then { d with data0 := w, need := d.need - 1 }
  else { d with data1 := w, need := d.need - 1 }

/-- One word on the port (R58). With no data word missing it is a command word: an illegal one, or one without data
words, acts at once and is not stored, and any other is stored. Else it is a data word of the packet. -/
def takeWord (d : Dec) (src : Nat) (w : Word) : Taken :=
  if d.need = 0 then
    match decodeCmd w 0 0 with
    | .error r => .illegal r w d
    | .ok i =>
      if dataWords w = 0 then .run i d else .collecting { d with cmd := w, need := dataWords w, src := src }
  else if src ≠ d.src then .interleaved
  else
    let d := d.store w
    if d.need = 0 then d.finish d.cmd d.data0 d.data1 else .collecting d

/-- What the events on the inputs come to, up to the first that makes the core act. -/
inductive Fetched
  /-- No packet is complete: the core waits, its decoder holding what has come so far. -/
  | idle (d : Dec)
  /-- `RST` was asserted; these events follow. -/
  | reset (rest : List Input)
  /-- A packet is complete; these events follow. -/
  | command (i : Instr) (d : Dec) (rest : List Input)
  /-- An illegal command word; these events follow. -/
  | illegal (r : Reject) (w : Word) (d : Dec) (rest : List Input)
  /-- Interleaved packets. -/
  | interleaved
  deriving DecidableEq, Repr

/-- Takes events from the inputs until the core acts. -/
def fetch (d : Dec) : List Input → Fetched
  | [] => .idle d
  | .rst :: rest => .reset rest
  | .word src w :: rest =>
    match takeWord d src w with
    | .collecting d => fetch d rest
    | .run i d => .command i d rest
    | .illegal r w d => .illegal r w d rest
    | .interleaved => .interleaved

/-- The state in which a packet's command runs: its words are taken, the response port is free again (R59: the response
"goes to the host before the next command starts"), and the free NaN patterns are fresh (log entry 5). -/
def State.accept (s : State) (d : Dec) (rest : List Input) : State :=
  { s with dec := d, inputs := rest, response := none, freeDraws := s.freeDraws + 1 }

/-- The state while the core waits. -/
def State.wait (s : State) (d : Dec) : State := { s with dec := d, inputs := [] }

/-- The state after `RST` (R360). The events that follow still come, the free NaN patterns stay fresh (log entry 3), and
the core's parameter is what it was. -/
def State.powerOn (s : State) (rest : List Input) : State :=
  { State.reset with inputs := rest, freeDraws := s.freeDraws, noiseMap := s.noiseMap }

/-- The words of one packet, as events from one host. -/
def packetInputs (src : Nat) (ws : List Word) : List Input := ws.map (.word src)

/-- A packet at the head of the inputs, with the decoder free to take it (log entry 10). -/
def State.placePacket (s : State) (ws : List Word) : State :=
  { s with dec := { s.dec with need := 0 }, inputs := packetInputs 0 ws ++ s.inputs }

end Sys2Proof.Machine
end

