-- ==== Sys2Proof/Machine/Step.lean ====
section
/-! DEFINITION. One step of the core: it takes events from its inputs until one makes it act, and acts (R58, R106). -/

namespace Sys2Proof.Machine

/-- One step: a complete packet's command runs, an illegal command word is reported (R342), `RST` resets (R360), and with
no packet complete the core waits (R356, R360). Only interleaved packets have no answer (R109). -/
def step (s : State) : Host.Outcome State Fault Refusal :=
  match fetch s.dec s.inputs with
  | .idle d => .next (s.wait d)
  | .reset rest => .next (s.powerOn rest)
  | .command i d rest => exec i (s.accept d rest)
  | .illegal r w d rest => .next (raiseIllegal r.cause w (s.accept d rest))
  | .interleaved => .refused .interleavedPacket

/-- The state with one packet, numbered as the host numbers an instruction's bits, as the next words on the port. -/
def State.withFetchWord (s : State) (nbits w : Nat) : State := s.placePacket (tablePacket nbits w)

end Sys2Proof.Machine
end

