-- ==== Sys2Proof/Machine/HostSide.lean ====
section
/-! DEFINITION. What the spec says of the host beside the core: the assembler's literals, symbols and pseudo-instructions
(R150 to R156; Assembler.lean reads their characters), the boot sequence (R370), the note start (R255) and the safety
scrub (R315). Plain functions; the step calls none of them. -/

namespace Sys2Proof.Machine

/-! ### Literals (R152) -/

/-- A literal of the assembler. -/
inductive Literal
  /-- `0x…`: a raw 32-bit value. -/
  | raw (w : Word)
  /-- A decimal integer, optionally signed. -/
  | int (n : Int)
  /-- A decimal number with the suffix `f`: `±(mantissa / 10^scale)`. -/
  | float (neg : Bool) (mantissa scale : Nat)
  deriving DecidableEq, Repr

/-- The nearest binary32 to `±(mantissa / 10^scale)`, ties to even (R12, R152). DESIGN CHOICE (log entry 14): from half a
unit beyond the largest finite number on it is an infinity, as a rounded result is (R13); R152 does not say what such a
literal gives; safe. -/
def decimalBits (neg : Bool) (mantissa scale : Nat) : Word := roundRat neg (mantissa * 2 ^ 149) (10 ^ scale)

/-- The 32-bit value of a literal (R152): an integer is its two's complement. -/
def Literal.bits : Literal → Word
  | .raw w => w
  | .int n => BitVec.ofInt 32 n
  | .float neg m d => decimalBits neg m d

/-- A literal read as a binary32 operand, as `WRF` reads it (R153): a decimal number without a suffix too. -/
def Literal.floatBits : Literal → Word
  | .raw w => w
  | .int n => decimalBits (decide (n < 0)) n.natAbs 0
  | .float neg m d => decimalBits neg m d

/-! ### Source lines (R150, R151, R153 to R156) -/

/-- The address operand of a source line: a 16-bit literal, or a symbol, which names a register by its path. -/
inductive AddrOperand
  | literal (a : Addr)
  | symbol (r : Reg)
  deriving DecidableEq, Repr

/-- The address an operand names (R151). -/
def AddrOperand.addr : AddrOperand → Addr
  | .literal a => a
  | .symbol r => r.addr

/-- A source line: a command, or a pseudo-instruction. -/
inductive Line
  | command (i : Instr)
  | wrf (a : AddrOperand) (f : Literal)
  | wri (a : AddrOperand) (n : Literal)
  | samples (n : Nat)
  | render (n : Nat)
  | clrStatus
  | rdStatus
  deriving DecidableEq, Repr

/-- `RENDER n` (R155). -/
def renderBlock (n : Nat) : List Instr := .blockBegin :: (List.replicate n .sample ++ [.blockEnd])

/-- The commands a source line expands to. -/
def Line.expand : Line → List Instr
  | .command i => [i]
  | .wrf a f => [.regWr a.addr f.floatBits]
  | .wri a n => [.regWr a.addr n.bits]
  | .samples n => List.replicate n .sample
  | .render n => renderBlock n
  | .clrStatus => [.regWr (Reg.glob .status).addr 0x00000001]
  | .rdStatus => [.regRd (Reg.glob .status).addr]

/-- The port words of a program. -/
def assemble (ls : List Line) : List Word := (ls.flatMap Line.expand).flatMap encode

/-- A write of a register by name. -/
def writeOf (r : Reg) (w : Word) : Instr := .regWr r.addr w

/-! ### Boot and note start -/

/-- The caller-set parameters of step 4 of R370. -/
structure BootParams where
  noiseMix : Word
  lfoInc : Word
  vibrato : Word
  pwmDepth : Word
  filterKeytrack : Word
  filterLfoDepth : Word
  filterEnvDepth : Word
  detune : Word
  glideRate : Word
  filterQ : Word
  ctrl : Word
  deriving DecidableEq, Repr

/-- Steps 1 to 5 of the boot sequence (R370). DESIGN CHOICE (log entry 14): the steps, and the writes of step 4, stand in
the order R370 lists them, of which it requires only a part; safe. -/
def bootSequence (sampleRate gainSteps level : Word) (p : BootParams) : List Instr :=
  [writeOf (.glob .sampleRate) sampleRate, writeOf (.glob .gainSteps) gainSteps, .coreReset,
    writeOf (.glob .noiseMix) p.noiseMix, writeOf (.glob .lfoInc) p.lfoInc, writeOf (.glob .vibrato) p.vibrato,
    writeOf (.glob .pwmDepth) p.pwmDepth, writeOf (.glob .filterKeytrack) p.filterKeytrack,
    writeOf (.glob .filterLfoDepth) p.filterLfoDepth, writeOf (.glob .filterEnvDepth) p.filterEnvDepth,
    writeOf (.glob .detune) p.detune, writeOf (.glob .glideRate) p.glideRate, writeOf (.glob .filterQ) p.filterQ,
    writeOf (.glob .ctrl) p.ctrl, .gainSet level]

/-- What the host writes into one envelope for a note (R255). -/
structure EnvParams where
  attackMul : Word
  decayMul : Word
  sustainLevel : Word
  releaseMul : Word
  deriving DecidableEq, Repr

/-- The writes of an envelope's four values. -/
def envWrites (v : Fin 8) (u : Fin 2) (p : EnvParams) : List Instr :=
  [writeOf (.env v u .attackMul) p.attackMul, writeOf (.env v u .decayMul) p.decayMul,
    writeOf (.env v u .sustainLevel) p.sustainLevel, writeOf (.env v u .releaseMul) p.releaseMul]

/-- A note start (R255). `PERIOD` is written if a value is given, and left for glide if not: step 1 lets the host do
either. DESIGN CHOICE (log entry 14): the writes of steps 1 to 3 stand in the order R255 lists them, which it says does not
matter; safe. -/
def noteStart (v : Fin 8) (note target : Word) (period : Option Word) (amplitude0 amplitude1 cutoff : Word)
    (e0 e1 : EnvParams) : List Instr :=
  [writeOf (.voice v .note) note, writeOf (.voice v .target) target] ++
  (period.map (writeOf (.voice v .period))).toList ++
  [writeOf (.osc v 0 .amplitude) amplitude0, writeOf (.osc v 1 .amplitude) amplitude1,
    writeOf (.voice v .cutoff) cutoff] ++
  envWrites v 0 e0 ++ envWrites v 1 e1 ++ [.voicePan v, .envAttack v 0, .envAttack v 1]

/-! ### The safety scrub of the host's buffers (R315) -/

/-- The pattern with its sign cleared. -/
def fabs (a : Word) : Word := a &&& 0x7FFFFFFF

/-- A sample that silences its buffer: a NaN, an infinity, or a magnitude above 2.0. -/
def silencesBuffer (a : Word) : Bool := isNaN a || isInf a || fgt (fabs a) Config.twoF

/-- The scrub of one buffer: silence it whole, or clamp every sample to -1.0 .. 1.0. -/
def scrub (buffer : List Word) : List Word :=
  if buffer.any silencesBuffer then buffer.map fun _ => Config.zeroF
  else buffer.map (clamp · Config.minusOneF Config.oneF)

end Sys2Proof.Machine
end

