-- ==== Sys2Proof/Safety.lean ====
section
/-! DEFINITION. The terms the claims are stated in: what a command leaves unchanged, the invariants of the core, what a
run without a refusal is, and the host contracts of R377, which the core does not check. -/

namespace Sys2Proof.Machine

/-! ### Frames -/

/-- Every register not in the list reads in `t` as it did in `s`. -/
def SameRegsExcept (regs : List Reg) (s t : State) : Prop := ∀ r : Reg, r ∉ regs → readReg t r = readReg s r

/-- What no register shows is unchanged: the decoder, the inputs, the response port, the counter of free values, the
parameter of the core. -/
def SamePorts (s t : State) : Prop :=
  t.dec = s.dec ∧ t.inputs = s.inputs ∧ t.response = s.response ∧ t.freeDraws = s.freeDraws ∧
    t.noiseMap = s.noiseMap

/-- The frame of a command that writes the registers in the list and nothing else. -/
def Frame (regs : List Reg) (s t : State) : Prop := SameRegsExcept regs s t ∧ SamePorts s t

/-- The registers of R191, with the status they determine. -/
def envDynamicRegs (v : Fin 8) (u : Fin 2) : List Reg :=
  [.env v u .level, .env v u .target, .env v u .multiplier, .env v u .status]

/-- The registers of R211. -/
def oscResetRegs (v : Fin 8) (u : Fin 2) : List Reg :=
  [.osc v u .phase, .osc v u .phaseInc, .osc v u .sin0, .osc v u .sin1, .osc v u .dsin, .osc v u .dcOffset]

/-- The registers an `OSC_NEXT` may write (R48, R212). -/
def oscNextRegs (v : Fin 8) (u : Fin 2) : List Reg := oscResetRegs v u ++ [.osc v u .phaseMax, .osc v u .out]

/-- The coefficients of R232. -/
def filtCoefRegs (v : Fin 8) : List Reg := [.filt v .g, .filt v .k, .filt v .a1, .filt v .a2, .filt v .a3]

/-- The seven registers of R231. -/
def filtResetRegs (v : Fin 8) : List Reg := filtCoefRegs v ++ [.filt v .ic1eq, .filt v .ic2eq]

/-- The registers of R250. -/
def voiceResetRegs (v : Fin 8) : List Reg :=
  [.voice v .note, .voice v .saw, .voice v .panLeft, .voice v .panRight] ++ oscResetRegs v 0 ++ oscResetRegs v 1 ++
    envDynamicRegs v 0 ++ envDynamicRegs v 1 ++ filtResetRegs v

/-- The registers of R252. -/
def voiceCtrlRegs (v : Fin 8) : List Reg :=
  [.voice v .period, .voice v .cutoffMod] ++ envDynamicRegs v 1 ++ filtCoefRegs v

/-- The registers of R254. -/
def voicePeriodRegs (v : Fin 8) : List Reg := [.osc v 0 .period, .osc v 1 .period]

/-- The voice a register belongs to, if it is not a global. -/
def Reg.voice? : Reg → Option (Fin 8)
  | .glob _ => none
  | .voice v _ | .osc v _ _ | .env v _ _ | .filt v _ => some v

/-! ### Values after the resets -/

/-- The power-on column of R45 to R50, as R360 lists it: the values that are not zero, and +0 or 0 everywhere else. -/
def powerOnValue : Reg → Word
  | .glob .id => 0x43583131
  | .glob .sampleRate => 0x472C4400
  | .glob .noiseSeed => 0x000056CE
  | .glob .vibratoMod | .glob .pwmMod | .glob .pitchBend | .glob .detune | .glob .glideRate | .glob .filterQ
  | .glob .resonanceCtl => 0x3F800000
  | .voice _ .filterQ | .voice _ .pitchBend => 0x3F800000
  | .voice _ .panLeft | .voice _ .panRight => 0x3F34FDF4
  | .osc _ _ .amplitude | .osc _ _ .modulation => 0x3F800000
  | _ => 0x00000000

/-- The table of R361: what `CORE_RESET` keeps (`ID` is constant). -/
def keptByCoreReset : Reg → Bool
  | .glob .status | .glob .illWord | .glob .ctrl | .glob .sampleRate | .glob .noiseMix | .glob .lfoInc | .glob .vibrato
  | .glob .pwmDepth | .glob .filterKeytrack | .glob .filterLfoDepth | .glob .filterEnvDepth | .glob .detune
  | .glob .glideRate | .glob .filterQ | .glob .gainTarget | .glob .gainStep | .glob .gainSteps | .glob .gainOut
  | .glob .noiseOut | .glob .lfoSine | .glob .vibratoMod | .glob .pwmMod | .glob .lfoFmod | .glob .mixL | .glob .mixR
  | .glob .outL | .glob .outR => true
  | .voice _ .period | .voice _ .target | .voice _ .glideRate | .voice _ .cutoff | .voice _ .filterMod
  | .voice _ .filterEnvDepth | .voice _ .voiceOut | .voice _ .cutoffMod | .voice _ .filterQ | .voice _ .pitchBend => true
  | .osc _ _ .period | .osc _ _ .phaseMax | .osc _ _ .out | .osc _ _ .amplitude | .osc _ _ .modulation => true
  | .env _ _ .attackMul | .env _ _ .decayMul | .env _ _ .sustainLevel | .env _ _ .releaseMul => true
  | .filt _ .out => true
  | _ => false

/-! ### Encodings, as the "Encoding" and "Exceptions" lines of the command rules give them -/

/-- The command words with opcode `op` use the fields named, start a packet of `words` words, decode to `mk` of the word
and its data words if every other field is 0, and are rejected as BAD_FIELD (cause 2) if not. -/
def CommandWord (op : Nat) (usesV usesU usesA : Bool) (words : Nat) (mk : Word → Word → Word → Instr) : Prop :=
  ∀ w d0 d1 : Word, w.toNat / 2 ^ 26 = op →
    dataWords w + 1 = words ∧
    ((zField w = 0 ∧ (usesV = false → vField w = 0) ∧ (usesU = false → uField w = 0) ∧
        (usesA = false → aField w = 0)) → decodeCmd w d0 d1 = .ok (mk w d0 d1)) ∧
    (¬ (zField w = 0 ∧ (usesV = false → vField w = 0) ∧ (usesU = false → uField w = 0) ∧
        (usesA = false → aField w = 0)) → decodeCmd w d0 d1 = .error .badField)

/-! ### Sequences of commands -/

/-- Runs commands one after another, to the first that does not answer a next state. -/
def runAll : List Instr → State → Host.Outcome State Fault Refusal
  | [], s => .next s
  | i :: is, s =>
    match exec i s with
    | .next t => runAll is t
    | .fault e => .fault e
    | .refused e => .refused e

/-- `ACTIVE` of a voice's amplitude envelope, as a read of `ENV_STATUS` shows it (R54). -/
def activeBit (s : State) (v : Fin 8) : Bool := (readReg s (.env v 0 .status)).getLsbD 0

/-- `IN_ATTACK` of an envelope, as a read of `ENV_STATUS` shows it (R54). -/
def inAttackBit (s : State) (v : Fin 8) (u : Fin 2) : Bool := (readReg s (.env v u .status)).getLsbD 1

/-- The voices in ascending order. -/
def voiceOrder : List (Fin 8) := [0, 1, 2, 3, 4, 5, 6, 7]

/-- The loop of `lfo_push()` as R300 writes it: three register writes, VOICE_CTRL and VOICE_PERIOD for each active
voice, in ascending order. -/
def pushLoop : List (Fin 8) → State → Host.Outcome State Fault Refusal
  | [], s => .next s
  | v :: vs, s =>
    if activeBit s v then
      let s := writeReg s (readReg s (.glob .vibratoMod)) (.osc v 0 .modulation)
      let s := writeReg s (readReg s (.glob .pwmMod)) (.osc v 1 .modulation)
      let s := writeReg s (readReg s (.glob .filterZip)) (.voice v .filterMod)
      match runAll [.voiceCtrl v, .voicePeriod v] s with
      | .next t => pushLoop vs t
      | .fault e => .fault e
      | .refused e => .refused e
    else pushLoop vs s

/-- The loop of `SAMPLE` as R321 writes it: each active voice is rendered, and its sample is added to L and R, in
ascending order. -/
def sampleLoop (noise : Word) : List (Fin 8) → State → Word → Word → Host.Outcome (State × Word × Word) Fault Refusal
  | [], s, l, r => .next (s, l, r)
  | v :: vs, s, l, r =>
    if activeBit s v then
      match exec (.voiceRender v noise) s with
      | .next t =>
        let out := readReg t (.voice v .voiceOut)
        sampleLoop noise vs t (fadd s.freeDraws l (fmul s.freeDraws out (readReg t (.voice v .panLeft))))
          (fadd s.freeDraws r (fmul s.freeDraws out (readReg t (.voice v .panRight))))
      | .fault e => .fault e
      | .refused e => .refused e
    else sampleLoop noise vs s l r

/-! ### The numbers patterns stand for -/

/-- The rational number a finite pattern stands for: sign, exponent in bits 30:23 with bias 127, fraction in bits 22:0
(R12, R103), by the IEEE 754 definition and not by the units of Machine/Float.lean. -/
def valueOf (a : Word) : ℚ :=
  (if signBit a then -1 else 1) * (((if expField a = 0 then fracField a else fracField a + 2 ^ 23 : ℕ)) : ℚ) *
    (2 : ℚ) ^ ((max (expField a) 1 : ℤ) - 150)

/-- The number an operand is read as under `DENORMAL_MODE` (R14). -/
def operandValue (a : Word) : ℚ := valueOf (flushSubnormal a)

/-- The place of a pattern that is no NaN among the numbers, an infinity beyond all of them. -/
def orderValue (a : Word) : ℚ :=
  if isInf a then (if signBit a then -(2 : ℚ) ^ 128 else (2 : ℚ) ^ 128) else operandValue a

/-- A quiet NaN: the first fraction bit is set. -/
def isQuietNaN (a : Word) : Bool := isNaN a && a.getLsbD 22

/-- `r` is `x` rounded to nearest, ties to even (R13): an infinity exactly from half a unit beyond the largest finite
number on, else no farther from `x` than any finite pattern, and with an even last bit where another number is just as
near. -/
def RoundsTo (x : ℚ) (r : Word) : Prop :=
  isNaN r = false ∧ (x ≠ 0 → signBit r = decide (x < 0)) ∧
    (isInf r = true ↔ (2 : ℚ) ^ 128 - 2 ^ 103 ≤ |x|) ∧
    (isFinite r = true → ∀ c, isFinite c = true →
      |x - valueOf r| ≤ |x - valueOf c| ∧
        (|x - valueOf r| = |x - valueOf c| → valueOf c = valueOf r ∨ r.toNat % 2 = 0))

/-! ### Invariants -/

/-- `CAUSE` is 0 to 4 (R341), it is 0 exactly when `ILL` is 0, and then `ILL_WORD` is 0 (R52, R342). -/
def StatusInv (g : Globals) : Prop :=
  g.cause.toNat ≤ 4 ∧ (g.cause = 0 ↔ g.ill = false) ∧ (g.ill = false → g.illWord = 0)

/-- R61: `GAIN_COUNT >= 0`, and at 0 `GAIN_CUR` equals `GAIN_TARGET` bit for bit. -/
def GainInv (g : Globals) : Prop := 0 ≤ g.gainCount.toInt ∧ (g.gainCount = 0 → g.gainCur = g.gainTarget)

/-- R58: the decoder collects only for a legal command word, and never more data words than it takes. -/
def DecInv (d : Dec) : Prop :=
  d.need ≠ 0 → (∃ i, decodeCmd d.cmd 0 0 = .ok i) ∧ d.need ≤ dataWords d.cmd

/-- The invariant every step keeps. -/
def Inv (s : State) : Prop := StatusInv s.g ∧ GainInv s.g ∧ DecInv s.dec

/-! ### Safe runs -/

/-- All waiting words come from the host `h` (R109, contract HC13: one host). -/
def OneHost (h : Nat) (s : State) : Prop :=
  (∀ src w, Input.word src w ∈ s.inputs → src = h) ∧ (s.dec.need ≠ 0 → s.dec.src = h)

/-- `n` steps answer a next state. -/
def SafeRun (n : Nat) (s : State) : Prop := ∃ t, Sys2Proof.core.run n s = .next t

/-! ### The host contracts of R377: premises a claim may name; no rule of the core tests them -/

/-- A binary32 number in a closed interval, by the comparisons of R15. -/
def between (lo a hi : Word) : Bool := fle lo a && fle a hi

/-- HC1: `osc.period*osc.modulation >= 6`. -/
def HC1 (s : State) (v : Fin 8) (u : Fin 2) : Prop :=
  fge (fmul s.freeDraws ((s.voice v).osc u).period ((s.voice v).osc u).modulation) Config.periodFloor = true

/-- HC2: a cutoff in [30, 20000] Hz and below half the sample rate. -/
def HC2 (s : State) (cutoff : Word) : Prop :=
  between Config.cutoffMin cutoff Config.cutoffMax = true ∧
    flt cutoff (fdiv s.freeDraws s.g.sampleRate Config.twoF) = true

/-- HC3: `q >= 0.5`. -/
def HC3 (q : Word) : Prop := fge q Config.qMin = true

/-- HC4: `SAMPLE_RATE` is finite and positive. -/
def HC4 (s : State) : Prop := isFinite s.g.sampleRate = true ∧ fgt s.g.sampleRate Config.zeroF = true

/-- HC5: the multipliers are in [0, 1], the release multiplier in (0, 1), attack and decay below 1. -/
def HC5 (e : Envelope) : Prop :=
  between Config.zeroF e.multiplier Config.oneF = true ∧
    (fle Config.zeroF e.attackMul = true ∧ flt e.attackMul Config.oneF = true) ∧
    (fle Config.zeroF e.decayMul = true ∧ flt e.decayMul Config.oneF = true) ∧
    (flt Config.zeroF e.releaseMul = true ∧ flt e.releaseMul Config.oneF = true)

/-- HC6: the sustain level is in [0, 1], level and target are not negative. -/
def HC6 (e : Envelope) : Prop :=
  between Config.zeroF e.sustainLevel Config.oneF = true ∧ fge e.level Config.zeroF = true ∧
    fge e.target Config.zeroF = true

/-- HC7: `LFO_INC` in [0, TWO_PI_F] and `LFO_PHASE` in [-PI_F, PI_F]. -/
def HC7 (s : State) : Prop :=
  between Config.zeroF s.g.lfoInc Config.twoPiF = true ∧
    between (fneg Config.piF) s.g.lfoPhase Config.piF = true

/-- HC8: `LFO_STEP` in [-2^31 + 1, 32]. -/
def HC8 (s : State) : Prop := -(2 ^ 31) + 1 ≤ s.g.lfoStep.toInt ∧ s.g.lfoStep.toInt ≤ 32

/-- HC9: `GAIN_STEPS >= 0` and a finite gain level. -/
def HC9 (s : State) (level : Word) : Prop := 0 ≤ s.g.gainSteps.toInt ∧ isFinite level = true

/-- HC10: `GLIDE_RATE` in [0, 1], the global one and each voice's own, which R252 reads (R47). -/
def HC10 (s : State) : Prop :=
  between Config.zeroF s.g.glideRate Config.oneF = true ∧
    ∀ v : Fin 8, between Config.zeroF (s.voice v).glideRate Config.oneF = true

/-- HC11: at most `n` voices are active. -/
def HC11 (n : Nat) (s : State) : Prop := (s.voices.toList.filter voiceActive).length ≤ n

/-- The events of R371: a register write, an attack, a release, a pan, or a reset. -/
def Instr.isHostEvent : Instr → Bool
  | .regWr _ _ | .envAttack _ _ | .envRelease _ _ | .voicePan _ | .coreReset | .voiceReset _ | .envReset _ _
  | .oscReset _ _ | .filtReset _ | .noiseReset | .lfoReset | .gainReset => true
  | .nop | .regRd _ | .envNext _ _ | .oscNext _ _ | .filtCoef _ _ _ | .filtRender _ _ | .voiceRender _ _ | .voiceCtrl _
  | .voicePeriod _ | .noiseNext | .lfoTick | .gainSet _ | .gainNext | .blockBegin | .sample | .blockEnd => false

/-- HC12: no such event inside a block, which runs from `BLOCK_BEGIN` to `BLOCK_END` (R371). `inside` says whether the
commands begin inside one. -/
def HC12 (inside : Bool) : List Instr → Bool
  | [] => true
  | .blockBegin :: is => HC12 true is
  | .blockEnd :: is => HC12 false is
  | i :: is => !(inside && Instr.isHostEvent i) && HC12 inside is

/-- HC13: one host; packets never interleave. -/
def HC13 (s : State) : Prop := ∃ h, OneHost h s

end Sys2Proof.Machine
end

