-- ==== Sys2Proof/Certificates/Slice0/Obligations.lean ====
section
/-! DEFINITION. The statements for the provers. Each docstring names the rule of spec/ it formalises; the witness of a
statement with hypotheses is a theorem of Sys2Proof/Tests/Slice0.lean. Registers are read through `readReg`, by path. -/

open Sys2Proof Sys2Proof.Machine

/-! ### Encoding (spec/30_encoding.md) -/

/-- Every command, with every operand, is decoded from its own encoding, whatever follows it (R130 to R136). -/
def Obligations.DecodeOfEncodeIsTheCommand : Prop :=
  ∀ (i : Instr) (rest : List Word), decode (encode i ++ rest) = .ok (i, rest)

/-- Each packet has one meaning: what decodes to a command begins with that command's encoding (R130, R137). -/
def Obligations.EncodeOfDecodeIsThePacket : Prop :=
  ∀ (ws rest : List Word) (i : Instr), decode ws = .ok (i, rest) → ws = encode i ++ rest

/-- The decoder, which works field by field, accepts exactly the packets of the opcode map's masks (R136, R137). -/
def Obligations.DecoderAcceptsExactlyTheOpcodeMap : Prop :=
  ∀ ws : List Word, Packet.wellFormed ws = true ↔ ∃ i, decode ws = .ok (i, [])

/-- R137: cause 1 exactly for the opcodes that are not in R136, which it lists, and cause 2 exactly for a listed opcode
whose word is in no row of the map; neither depends on data words. -/
def Obligations.IllegalWordsAreRejectedByCause : Prop :=
  ∀ w d0 d1 : Word,
    let op := w.toNat / 2 ^ 26
    let undefinedOp := (0x05 ≤ op ∧ op ≤ 0x07) ∨ (0x0E ≤ op ∧ op ≤ 0x0F) ∨ op = 0x13 ∨ (0x1A ≤ op ∧ op ≤ 0x1B) ∨
      (0x1E ≤ op ∧ op ≤ 0x1F) ∨ op = 0x23 ∨ (0x27 ≤ op ∧ op ≤ 0x3F)
    (decodeCmd w d0 d1 = .error .undefinedOp ↔ undefinedOp) ∧
    (decodeCmd w d0 d1 = .error .badField ↔ ¬ undefinedOp ∧ rowOf w = none) ∧
    (decodeCmd w d0 d1 ≠ .error .truncated) ∧
    (∀ r, decode (w :: [d0, d1]) = .error r → packetWords w = 1)

/-- R140: the worked encodings, read by the decoder. -/
def Obligations.WorkedEncodingsDecode : Prop :=
  decode [0x00000000] = .ok (.nop, []) ∧
  decode [0x08000000] = .ok (.regRd (Reg.glob .id).addr, []) ∧
  decode [0x04000003, 0x473B8000] = .ok (.regWr (Reg.glob .sampleRate).addr 0x473B8000, []) ∧
  decode [0x35400000] = .ok (.oscNext 2 1, []) ∧
  decode [0x27800000] = .ok (.envAttack 7 0, []) ∧
  decode [0x44800000, 0x447A0000, 0x3F34FDF4] = .ok (.filtCoef 1 0x447A0000 0x3F34FDF4, []) ∧
  decode [0x50000000, 0x00000000] = .ok (.voiceRender 0 0x00000000, []) ∧
  decode [0x94000000] = .ok (.sample, []) ∧
  decode [0x94800000] = .error .badField ∧
  decode [0x0D000000] = .error .badField ∧
  decode [0x14000000] = .error .undefinedOp

/-! ### The command port (R58, R103, R106, R109, R342, R360) -/

/-- A step runs the decoded command: with the decoder free and a command's packet next on the inputs, all of it from one
host, the step is that command's meaning in the state with the packet taken, the response port free and a fresh key for
the free NaN patterns (the last two are the model's, log entries 2 and 5). Inside the decoder only `need` is 0 again. -/
def Obligations.StepRunsTheDecodedCommand : Prop :=
  ∀ (s : State) (i : Instr) (h : Nat) (rest : List Input),
    s.dec.need = 0 → s.inputs = packetInputs h (encode i) ++ rest →
    ∃ d : Dec, d.need = 0 ∧ step s = exec i (s.accept d rest)

/-- A packet cut anywhere between two steps runs as if it had come whole: the words collected stay in the decoder
(R58, R106). Two clauses are the model's choice: that a step can end between the words of a packet, where its inputs end
(log entry 1), and that a step which only waits leaves the response (log entry 2). -/
def Obligations.SplitPacketRunsAsWhole : Prop :=
  ∀ (s : State) (i : Instr) (h : Nat) (ws1 ws2 : List Word) (rest : List Input),
    s.dec.need = 0 → encode i = ws1 ++ ws2 → ws2 ≠ [] →
    ∃ s1, step { s with inputs := packetInputs h ws1 } = .next s1 ∧
      (∀ r, readReg s1 r = readReg s r) ∧ s1.response = s.response ∧
      step { s1 with inputs := packetInputs h ws2 ++ rest } =
        step { s with inputs := packetInputs h (encode i) ++ rest }

/-- With nothing on its inputs the core keeps all its state (R356). -/
def Obligations.CoreWithoutInputKeepsItsState : Prop :=
  ∀ s : State, s.inputs = [] → step s = .next s

/-- R342: `raise Illegal(cause)` with any cause and command word, and what an illegal word does on the port: that one
word is taken, with its cause 1 or 2. In the state that clause reports in, three things are the model's choice: the
response port is free again (log entry 2), the key of the free NaN patterns has grown (log entry 5), and the hidden
`dec.cmd` and `dec.data` stay (log entry 11). -/
def Obligations.IllegalCommandOnlyReports : Prop :=
  (∀ (cause : BitVec 4) (w : Word) (s : State),
    let t := raiseIllegal cause w s
    let ill := (readReg s (.glob .status)).getLsbD 0
    (readReg t (.glob .status)).toNat =
      (if ill then (readReg s (.glob .status)).toNat else cause.toNat * 2 ^ 4 + 1) ∧
    readReg t (.glob .illWord) = (if ill then readReg s (.glob .illWord) else w) ∧
    t.response = (if w.toNat / 2 ^ 26 = 0x02 then some 0 else s.response) ∧
    SameRegsExcept [.glob .status, .glob .illWord] s t ∧
    t.dec = s.dec ∧ t.inputs = s.inputs ∧ t.freeDraws = s.freeDraws ∧ t.noiseMap = s.noiseMap) ∧
  ∀ (s : State) (h : Nat) (w : Word) (rest : List Input) (r : Reject),
    s.dec.need = 0 → s.inputs = .word h w :: rest → decodeCmd w 0 0 = .error r →
    (r = .undefinedOp ∨ r = .badField) ∧
    step s = .next (raiseIllegal (if r = .undefinedOp then 1 else 2) w (s.accept s.dec rest))

/-- The response port carries a word after a packet exactly if it is a REG_RD, legal or not (D6, R172, R342): for the
packet of every command, whatever operands it has, and for every illegal word. (That a port without a new response is free
after the packet is the model's choice, log entry 2.) -/
def Obligations.OnlyRegRdResponds : Prop :=
  (∀ (s : State) (i : Instr) (h : Nat) (rest : List Input),
    s.dec.need = 0 → s.inputs = packetInputs h (encode i) ++ rest →
    ∃ t, step s = .next t ∧ (t.response.isSome = true ↔ ∃ a, i = .regRd a)) ∧
  ∀ (s : State) (h : Nat) (w : Word) (rest : List Input) (r : Reject),
    s.dec.need = 0 → s.inputs = .word h w :: rest → decodeCmd w 0 0 = .error r →
    ∃ t, step s = .next t ∧ (t.response.isSome = true ↔ w.toNat / 2 ^ 26 = 0x02)

/-- Words of one host are never refused, however many steps run and whatever they are; and no step of one host's words
stops (R109, R340: "The core raises no trap"). -/
def Obligations.OneHostRunsForever : Prop :=
  ∀ (n h : Nat) (s : State), OneHost h s → SafeRun n s

/-- A data word of another host inside a packet is refused (R109: "A model must refuse such a run"), wherever it comes: the
packet may have been begun before the step or within it, and any of its data words may be the foreign one. -/
def Obligations.InterleavedPacketIsRefused : Prop :=
  ∀ (s : State) (before rest : List Input) (d : Dec) (src : Nat) (w : Word),
    fetch s.dec before = .idle d → d.need ≠ 0 → src ≠ d.src → s.inputs = before ++ .word src w :: rest →
    step s = .refused .interleavedPacket

/-- R360: RST gives every register its power-on value and clears the decoder; the words of an unfinished packet before it
are dropped, and with no input after it the core executes nothing. That the inputs after RST still wait is the model's
choice (log entry 3), and that the parameter NOISE_MAP stays is its reading of R7 (log entry 8). -/
def Obligations.RstRestoresPowerOnState : Prop :=
  ∀ (s : State) (before rest : List Input) (d : Dec),
    fetch s.dec before = .idle d → s.inputs = before ++ .rst :: rest →
    ∃ t, step s = .next t ∧ (∀ r, readReg t r = powerOnValue r) ∧ t.dec.need = 0 ∧ t.dec.cmd = 0 ∧
      t.dec.data0 = 0 ∧ t.dec.data1 = 0 ∧ t.inputs = rest ∧ t.noiseMap = s.noiseMap ∧ (rest = [] → step t = .next t)

/-- The state right after reset (R360): the power-on values, a cleared decoder, no voice active. -/
def Obligations.ResetStateReadsPowerOnValues : Prop :=
  (∀ r, readReg State.reset r = powerOnValue r) ∧ State.reset.dec.need = 0 ∧ State.reset.dec.cmd = 0 ∧
    State.reset.dec.data0 = 0 ∧ State.reset.dec.data1 = 0 ∧
    (∀ v u, readReg State.reset (.env v u .status) = 0)

/-! ### The register space (spec/10_state.md, 20_memory.md, 40_register_access.md) -/

/-- The register map is one to one: each register is at its address and no address holds another (R43, R45 to R50). -/
def Obligations.RegisterMapIsOneToOne : Prop :=
  ∀ (a : Addr) (r : Reg), regAt a = some r ↔ r.addr = a

/-- R57 with R45 and R46: the unmapped addresses. -/
def Obligations.UnmappedAddressesAreTheListedOnes : Prop :=
  ∀ a : Addr,
    let n := a.toNat
    let off := (n - 0x100) % 0x80
    regAt a = none ↔
      (0x0008 ≤ n ∧ n ≤ 0x000F) ∨ n = 0x001F ∨ (0x0026 ≤ n ∧ n ≤ 0x002F) ∨ (0x0036 ≤ n ∧ n ≤ 0x0037) ∨
      (0x003C ≤ n ∧ n ≤ 0x00FF) ∨ (0x0500 ≤ n ∧ n ≤ 0xFFFF) ∨
      (0x0100 ≤ n ∧ n ≤ 0x04FF ∧
        ((0x0E ≤ off ∧ off ≤ 0x0F) ∨ (0x18 ≤ off ∧ off ≤ 0x1F) ∨ (0x2B ≤ off ∧ off ≤ 0x2F) ∨
          (0x3B ≤ off ∧ off ≤ 0x3F) ∨ (0x48 ≤ off ∧ off ≤ 0x4F) ∨ (0x58 ≤ off ∧ off ≤ 0x7F)))

/-- R51 to R54: what ID, STATUS, CTRL and ENV_STATUS read as, bit by bit. -/
def Obligations.FieldRegistersReadTheirFields : Prop :=
  ∀ (s : State) (v : Fin 8) (u : Fin 2),
    readReg s (.glob .id) = 0x43583131 ∧
    (readReg s (.glob .status)).toNat = s.g.cause.toNat * 2 ^ 4 + (if s.g.ill then 1 else 0) ∧
    (readReg s (.glob .ctrl)).toNat = (if s.g.mono then 1 else 0) ∧
    (readReg s (.env v u .status)).toNat =
      (if fge (readReg s (.env v u .target)) 0x40000000 then 2 else 0) +
        (if fgt (readReg s (.env v u .level)) 0x3A83126F then 1 else 0)

/-- R170: `NOP` leaves every register unchanged. -/
def Obligations.NopChangesNothing : Prop :=
  (∀ s : State, exec .nop s = .next s) ∧ CommandWord 0x00 false false false 1 (fun _ _ _ => .nop)

/-- R171: an unmapped address reports cause 3 and a read-only register cause 4, STATUS and CTRL are written by their
fields, and every other register stores the word verbatim. Nothing else changes but the ENV_STATUS a level or a target
determines. -/
def Obligations.RegWrWritesOneRegister : Prop :=
  CommandWord 0x01 false false true 2 (fun w value _ => .regWr (aField w) value) ∧
  ∀ (s : State) (a : Addr) (value : Word), ∃ t, exec (.regWr a value) s = .next t ∧ SamePorts s t ∧
    (regAt a = none → t = raiseIllegal 3 (BitVec.ofNat 32 (0x04000000 + a.toNat)) s) ∧
    (∀ r, regAt a = some r → r.readOnly = true →
      t = raiseIllegal 4 (BitVec.ofNat 32 (0x04000000 + a.toNat)) s) ∧
    (regAt a = some (.glob .status) →
      SameRegsExcept [.glob .status, .glob .illWord] s t ∧
      (value.getLsbD 0 = true → readReg t (.glob .status) = 0 ∧ readReg t (.glob .illWord) = 0) ∧
      (value.getLsbD 0 = false → ∀ r, readReg t r = readReg s r)) ∧
    (regAt a = some (.glob .ctrl) →
      SameRegsExcept [.glob .ctrl] s t ∧
      readReg t (.glob .ctrl) = (if value.getLsbD 0 then 0x00000001 else 0x00000000)) ∧
    (∀ r, regAt a = some r → r.readOnly = false → r ≠ .glob .status → r ≠ .glob .ctrl →
      readReg t r = value ∧
      (∀ r', r' ≠ r → (∀ v u, r = .env v u .level ∨ r = .env v u .target → r' ≠ .env v u .status) →
        readReg t r' = readReg s r'))

/-- The read-only registers of R45 to R50 (R44: "Only commands write the register"). -/
def Obligations.ReadOnlyRegistersAreTheListedOnes : Prop :=
  ∀ r : Reg, r.readOnly = true ↔
    r ∈ ([.glob .id, .glob .noiseOut, .glob .illWord, .glob .lfoSine, .glob .vibratoMod, .glob .pwmMod,
      .glob .lfoFmod, .glob .gainCur, .glob .gainTarget, .glob .gainStep, .glob .gainCount, .glob .gainOut,
      .glob .mixL, .glob .mixR, .glob .outL, .glob .outR] : List Reg) ∨
    (∃ v, r = .voice v .voiceOut ∨ r = .voice v .cutoffMod ∨ r = .filt v .out) ∨
    (∃ v u, r = .osc v u .out ∨ r = .env v u .status)

/-- R172 with R105: a mapped register's word goes to the response port and nothing else changes; an unmapped address
reports cause 3 and is answered 0. -/
def Obligations.RegRdOnlyResponds : Prop :=
  CommandWord 0x02 false false true 1 (fun w _ _ => .regRd (aField w)) ∧
  ∀ (s : State) (a : Addr), ∃ t, exec (.regRd a) s = .next t ∧
    t.dec = s.dec ∧ t.inputs = s.inputs ∧ t.freeDraws = s.freeDraws ∧ t.noiseMap = s.noiseMap ∧
    (∀ r, regAt a = some r → t.response = some (readReg s r) ∧ t.g = s.g ∧ t.voices = s.voices) ∧
    (regAt a = none → t.response = some 0 ∧
      SameRegsExcept [.glob .status, .glob .illWord] s t ∧
      readReg t (.glob .status) =
        (if (readReg s (.glob .status)).getLsbD 0 then readReg s (.glob .status) else 0x00000031) ∧
      readReg t (.glob .illWord) =
        (if (readReg s (.glob .status)).getLsbD 0 then readReg s (.glob .illWord)
          else BitVec.ofNat 32 (0x08000000 + a.toNat)))

/-! ### Envelopes (spec/41_envelope.md) -/

/-- R191. -/
def Obligations.EnvResetClearsDynamicState : Prop :=
  CommandWord 0x08 true true false 1 (fun w _ _ => .envReset (vField w) (uField w)) ∧
  ∀ (s : State) (v : Fin 8) (u : Fin 2), ∃ t, exec (.envReset v u) s = .next t ∧
    (∀ r ∈ envDynamicRegs v u, readReg t r = 0x00000000) ∧ Frame (envDynamicRegs v u) s t

/-- R192, with its corner cases: the new level is above SILENCE whenever the old one is not negative, and a NaN level
stays NaN. -/
def Obligations.EnvAttackEntersAttack : Prop :=
  CommandWord 0x09 true true false 1 (fun w _ _ => .envAttack (vField w) (uField w)) ∧
  (∀ k, fadd k Config.silence Config.silence = 0x3B03126F) ∧
  ∀ (s : State) (v : Fin 8) (u : Fin 2), ∃ t, exec (.envAttack v u) s = .next t ∧
    readReg t (.env v u .level) = fadd s.freeDraws (readReg s (.env v u .level)) 0x3B03126F ∧
    readReg t (.env v u .target) = 0x40000000 ∧
    readReg t (.env v u .multiplier) = readReg s (.env v u .attackMul) ∧
    inAttackBit t v u = true ∧
    (readReg t (.env v u .status)).getLsbD 0 = fgt (readReg t (.env v u .level)) 0x3A83126F ∧
    (fge (readReg s (.env v u .level)) 0x00000000 = true → (readReg t (.env v u .status)).getLsbD 0 = true) ∧
    (isNaN (readReg s (.env v u .level)) = true → isNaN (readReg t (.env v u .level)) = true) ∧
    Frame (envDynamicRegs v u) s t

/-- R193: "`level` is never written". -/
def Obligations.EnvReleaseKeepsLevel : Prop :=
  CommandWord 0x0A true true false 1 (fun w _ _ => .envRelease (vField w) (uField w)) ∧
  ∀ (s : State) (v : Fin 8) (u : Fin 2), ∃ t, exec (.envRelease v u) s = .next t ∧
    readReg t (.env v u .target) = 0x00000000 ∧
    readReg t (.env v u .multiplier) = readReg s (.env v u .releaseMul) ∧
    inAttackBit t v u = false ∧
    (readReg t (.env v u .status)).getLsbD 0 = (readReg s (.env v u .status)).getLsbD 0 ∧
    Frame [.env v u .target, .env v u .multiplier, .env v u .status] s t

/-- R194: the recurrence, and the exit test on the new level and the old target. -/
def Obligations.EnvNextStepsAndExits : Prop :=
  CommandWord 0x0B true true false 1 (fun w _ _ => .envNext (vField w) (uField w)) ∧
  ∀ (s : State) (v : Fin 8) (u : Fin 2), ∃ t, exec (.envNext v u) s = .next t ∧
    let k := s.freeDraws
    let e := fun r => readReg s (.env v u r)
    let level := fadd k (fmul k (e .multiplier) (fsub k (e .level) (e .target))) (e .target)
    let exits := fgt (fadd k level (e .target)) 0x40400000
    readReg t (.env v u .level) = level ∧
    readReg t (.env v u .multiplier) = (if exits then e .decayMul else e .multiplier) ∧
    readReg t (.env v u .target) = (if exits then e .sustainLevel else e .target) ∧
    Frame (envDynamicRegs v u) s t

/-- R60 for one step: with finite non-negative level and target, a multiplier in [0, 1] and a non-negative sustain level,
ENV_NEXT leaves level and target not negative. (Finiteness is the model's premise: R60 does not name it, and with a
level and a target of +infinity the difference is a NaN.) -/
def Obligations.EnvNextKeepsLevelNonNegative : Prop :=
  ∀ (k : Nat) (e : Envelope),
    isFinite e.level = true → isFinite e.target = true → fge e.level Config.zeroF = true →
    fge e.target Config.zeroF = true → between Config.zeroF e.multiplier Config.oneF = true →
    fge e.sustainLevel Config.zeroF = true →
    fge (envNext k e).level Config.zeroF = true ∧ fge (envNext k e).target Config.zeroF = true

/-- R195: in Release, with a multiplier in (0, 1), a step lowers a normal level strictly and keeps target and multiplier,
and the envelope is inactive after finitely many steps. (Two premises are the model's. The level is above the smallest
normal number: there the product with 1 - 2^-24 is a tie and rounds back to it. The level is at most 3: above it the
exit test of R194 fires and ends the release.) -/
def Obligations.ReleaseEndsInSilence : Prop :=
  ∀ (k : Nat) (e : Envelope),
    e.target = Config.zeroF → flt Config.zeroF e.multiplier = true → flt e.multiplier Config.oneF = true →
    flt 0x00800000 e.level = true → fle e.level Config.attackExit = true →
    flt (envNext k e).level e.level = true ∧ (envNext k e).target = e.target ∧
      (envNext k e).multiplier = e.multiplier ∧ ∃ n, envActive ((envNext k)^[n] e) = false

/-- R190: "Entering Attack is the only way `target` reaches 2.0, so long as the host writes no ENV_TARGET of 2.0 or
more": over every command. (The premise on the sustain level is the model's reading: R194 copies it to the target.) -/
def Obligations.OnlyEnvAttackEntersAttack : Prop :=
  ∀ (i : Instr) (s t : State) (v : Fin 8) (u : Fin 2),
    exec i s = .next t → i ≠ .envAttack v u → (∀ value, i ≠ .regWr (Reg.env v u .target).addr value) →
    inAttackBit s v u = false → fge (readReg s (.env v u .sustainLevel)) Config.attackTarget = false →
    inAttackBit t v u = false

/-! ### Oscillators (spec/42_oscillator.md) -/

/-- R211. -/
def Obligations.OscResetClearsRunningState : Prop :=
  CommandWord 0x0C true true false 1 (fun w _ _ => .oscReset (vField w) (uField w)) ∧
  ∀ (s : State) (v : Fin 8) (u : Fin 2), ∃ t, exec (.oscReset v u) s = .next t ∧
    (∀ r ∈ oscResetRegs v u, readReg t r = 0x00000000) ∧ Frame (oscResetRegs v u) s t

/-- R212: the restart branch, and the running branch with and without a mirror. -/
def Obligations.OscNextProducesOneSample : Prop :=
  CommandWord 0x0D true true false 1 (fun w _ _ => .oscNext (vField w) (uField w)) ∧
  ∀ (s : State) (v : Fin 8) (u : Fin 2), ∃ t, exec (.oscNext v u) s = .next t ∧ Frame (oscNextRegs v u) s t ∧
    let k := s.freeDraws
    let o := fun r => readReg s (.osc v u r)
    let o' := fun r => readReg t (.osc v u r)
    let phase := fadd k (o .phase) (o .phaseInc)
    (fle phase 0x3F490FDB = true →
      let hp := fmul k (fdiv k (o .period) 0x40000000) (o .modulation)
      let len := fsub k (ffloor (fadd k 0x3F000000 hp)) 0x3F000000
      o' .dcOffset = fdiv k (fmul k 0x3F000000 (o .amplitude)) len ∧
      o' .phaseMax = fmul k len 0x40490FDB ∧
      o' .phaseInc = fdiv k (o' .phaseMax) hp ∧
      o' .phase = fneg phase ∧
      o' .sin0 = fmul k (o .amplitude) (fsin (o' .phase)) ∧
      o' .sin1 = fmul k (o .amplitude) (fsin (fsub k (o' .phase) (o' .phaseInc))) ∧
      o' .dsin = fmul k 0x40000000 (fcos (o' .phaseInc)) ∧
      o' .out = fsub k
        (if fgt (fmul k (o' .phase) (o' .phase)) 0x3089705F then fdiv k (o' .sin0) (o' .phase) else o .amplitude)
        (o' .dcOffset)) ∧
    (fle phase 0x3F490FDB = false →
      let mirrors := fgt phase (o .phaseMax)
      o' .phase = (if mirrors then fsub k (fadd k (o .phaseMax) (o .phaseMax)) phase else phase) ∧
      o' .phaseInc = (if mirrors then fneg (o .phaseInc) else o .phaseInc) ∧
      o' .sin0 = fsub k (fmul k (o .dsin) (o .sin0)) (o .sin1) ∧
      o' .sin1 = o .sin0 ∧ o' .dsin = o .dsin ∧ o' .dcOffset = o .dcOffset ∧ o' .phaseMax = o .phaseMax ∧
      o' .out = fsub k (fdiv k (o' .sin0) (o' .phase)) (o .dcOffset))

/-- R217: the value of OSC_PHASE_MAX from before an OSC_RESET has no effect: states that differ in nothing else agree in
every register after OSC_RESET and OSC_NEXT. -/
def Obligations.OscResetHidesPhaseMax : Prop :=
  ∀ (s s' : State) (v : Fin 8) (u : Fin 2),
    SameRegsExcept [.osc v u .phaseMax] s s' → s'.freeDraws = s.freeDraws →
    ∃ t t', runAll [.oscReset v u, .oscNext v u] s = .next t ∧ runAll [.oscReset v u, .oscNext v u] s' = .next t' ∧
      ∀ r, readReg t' r = readReg t r

/-! ### Filter (spec/43_filter.md) -/

/-- R231. -/
def Obligations.FiltResetClearsCoefficientsAndIntegrators : Prop :=
  CommandWord 0x10 true false false 1 (fun w _ _ => .filtReset (vField w)) ∧
  ∀ (s : State) (v : Fin 8), ∃ t, exec (.filtReset v) s = .next t ∧
    (∀ r ∈ filtResetRegs v, readReg t r = 0x00000000) ∧ Frame (filtResetRegs v) s t

/-- R232. -/
def Obligations.FiltCoefComputesCoefficients : Prop :=
  CommandWord 0x11 true false false 3 (fun w cutoff q => .filtCoef (vField w) cutoff q) ∧
  ∀ (s : State) (v : Fin 8) (cutoff q : Word), ∃ t, exec (.filtCoef v cutoff q) s = .next t ∧
    let k := s.freeDraws
    let f := fun r => readReg t (.filt v r)
    f .g = ftan (fdiv k (fmul k 0x40490FDB cutoff) (readReg s (.glob .sampleRate))) ∧
    f .k = fdiv k 0x3F800000 q ∧
    f .a1 = fdiv k 0x3F800000 (fadd k 0x3F800000 (fmul k (f .g) (fadd k (f .g) (f .k)))) ∧
    f .a2 = fmul k (f .g) (f .a1) ∧ f .a3 = fmul k (f .g) (f .a2) ∧
    Frame (filtCoefRegs v) s t

/-- R233. -/
def Obligations.FiltRenderFiltersOneSample : Prop :=
  CommandWord 0x12 true false false 2 (fun w x _ => .filtRender (vField w) x) ∧
  ∀ (s : State) (v : Fin 8) (x : Word), ∃ t, exec (.filtRender v x) s = .next t ∧
    let k := s.freeDraws
    let f := fun r => readReg s (.filt v r)
    let v3 := fsub k x (f .ic2eq)
    let v1 := fadd k (fmul k (f .a1) (f .ic1eq)) (fmul k (f .a2) v3)
    let v2 := fadd k (fadd k (f .ic2eq) (fmul k (f .a2) (f .ic1eq))) (fmul k (f .a3) v3)
    readReg t (.filt v .ic1eq) = fsub k (fmul k 0x40000000 v1) (f .ic1eq) ∧
    readReg t (.filt v .ic2eq) = fsub k (fmul k 0x40000000 v2) (f .ic2eq) ∧
    readReg t (.filt v .out) = v2 ∧
    Frame [.filt v .ic1eq, .filt v .ic2eq, .filt v .out] s t

/-! ### Voices (spec/44_voice.md) -/

/-- R250. -/
def Obligations.VoiceResetClearsOneVoice : Prop :=
  CommandWord 0x04 true false false 1 (fun w _ _ => .voiceReset (vField w)) ∧
  ∀ (s : State) (v : Fin 8), ∃ t, exec (.voiceReset v) s = .next t ∧
    (∀ r ∈ voiceResetRegs v, readReg t r =
      (if r = .voice v .panLeft ∨ r = .voice v .panRight then 0x3F34FDF4 else 0x00000000)) ∧
    Frame (voiceResetRegs v) s t

/-- R251: VOICE_RENDER is OSC_NEXT on both oscillators, the leaky integrator, FILT_RENDER on its sum with the noise, and
ENV_NEXT on envelope 0, whose new level scales the output. -/
def Obligations.VoiceRenderRunsTheVoicePath : Prop :=
  CommandWord 0x14 true false false 2 (fun w x _ => .voiceRender (vField w) x) ∧
  ∀ (s : State) (v : Fin 8) (x : Word), ∃ s1 s2 s3 s4 t,
    let k := s.freeDraws
    let saw := fsub k (fadd k (fmul k (readReg s (.voice v .saw)) 0x3F7F3B64) (readReg s1 (.osc v 0 .out)))
      (readReg s2 (.osc v 1 .out))
    exec (.oscNext v 0) s = .next s1 ∧ exec (.oscNext v 1) s1 = .next s2 ∧
    exec (.filtRender v (fadd k saw x)) s2 = .next s3 ∧ exec (.envNext v 0) s3 = .next s4 ∧
    exec (.voiceRender v x) s = .next t ∧
    readReg t (.voice v .saw) = saw ∧
    readReg t (.voice v .voiceOut) = fmul k (readReg s3 (.filt v .out)) (readReg s4 (.env v 0 .level)) ∧
    SameRegsExcept [.voice v .saw, .voice v .voiceOut] s4 t ∧
    Frame ([.voice v .saw, .voice v .voiceOut, .filt v .ic1eq, .filt v .ic2eq, .filt v .out] ++ oscNextRegs v 0 ++
      oscNextRegs v 1 ++ envDynamicRegs v 0) s t

/-- R252: VOICE_CTRL is the portamento step, ENV_NEXT on envelope 1, and FILT_COEF with the clamped modulated cutoff. -/
def Obligations.VoiceCtrlRunsTheControlTick : Prop :=
  CommandWord 0x15 true false false 1 (fun w _ _ => .voiceCtrl (vField w)) ∧
  ∀ (s : State) (v : Fin 8), ∃ s1 s2 t,
    let k := s.freeDraws
    let vo := fun r => readReg s (.voice v r)
    let arg := fadd k (vo .filterMod) (fmul k (vo .filterEnvDepth) (readReg s1 (.env v 1 .level)))
    let raw := fdiv k (fmul k (vo .cutoff) (fexp arg)) (vo .pitchBend)
    let mc := if flt raw 0x41F00000 then 0x41F00000 else if flt 0x469C4000 raw then 0x469C4000 else raw
    exec (.envNext v 1) s = .next s1 ∧ exec (.filtCoef v mc (vo .filterQ)) s1 = .next s2 ∧
    exec (.voiceCtrl v) s = .next t ∧
    readReg t (.voice v .period) =
      fadd k (vo .period) (fmul k (vo .glideRate) (fsub k (vo .target) (vo .period))) ∧
    readReg t (.voice v .cutoffMod) = mc ∧
    SameRegsExcept [.voice v .period, .voice v .cutoffMod] s2 t ∧
    Frame (voiceCtrlRegs v) s t

/-- R253. -/
def Obligations.VoicePanSetsPanGains : Prop :=
  CommandWord 0x16 true false false 1 (fun w _ _ => .voicePan (vField w)) ∧
  ∀ (s : State) (v : Fin 8), ∃ t, exec (.voicePan v) s = .next t ∧
    let k := s.freeDraws
    let raw := fdiv k (fsub k (i2f (readReg s (.voice v .note))) 0x42700000) 0x41C00000
    let p := if flt raw 0xBF800000 then 0xBF800000 else if flt 0x3F800000 raw then 0x3F800000 else raw
    readReg t (.voice v .panLeft) = fsin (fmul k 0x3F490FDB (fsub k 0x3F800000 p)) ∧
    readReg t (.voice v .panRight) = fsin (fmul k 0x3F490FDB (fadd k 0x3F800000 p)) ∧
    Frame [.voice v .panLeft, .voice v .panRight] s t

/-- R254. -/
def Obligations.VoicePeriodSetsOscillatorPeriods : Prop :=
  CommandWord 0x17 true false false 1 (fun w _ _ => .voicePeriod (vField w)) ∧
  ∀ (s : State) (v : Fin 8), ∃ t, exec (.voicePeriod v) s = .next t ∧
    readReg t (.osc v 0 .period) =
      fmul s.freeDraws (readReg s (.voice v .period)) (readReg s (.glob .pitchBend)) ∧
    readReg t (.osc v 1 .period) = fmul s.freeDraws (readReg t (.osc v 0 .period)) (readReg s (.glob .detune)) ∧
    Frame (voicePeriodRegs v) s t

/-- A command that names a voice changes no global and no other voice (the field V of R132; R362: "none of them touches a
register outside its unit"). -/
def Obligations.VoiceCommandsTouchTheirVoiceOnly : Prop :=
  ∀ (i : Instr) (s t : State) (v : Fin 8), i.voice? = some v → exec i s = .next t →
    SamePorts s t ∧ ∀ r : Reg, r.voice? ≠ some v → readReg t r = readReg s r

/-- Voices are independent (R300): what a command does to the voice it names depends on the globals and that voice alone. -/
def Obligations.VoicesDoNotReadEachOther : Prop :=
  ∀ (i : Instr) (s s' t t' : State) (v : Fin 8), i.voice? = some v →
    (∀ r : Reg, r.voice? = some v ∨ r.voice? = none → readReg s' r = readReg s r) → s'.freeDraws = s.freeDraws →
    exec i s = .next t → exec i s' = .next t' →
    ∀ r : Reg, r.voice? = some v → readReg t' r = readReg t r

/-! ### Noise (spec/45_noise.md) -/

/-- R280. -/
def Obligations.NoiseResetReloadsSeed : Prop :=
  CommandWord 0x18 false false false 1 (fun _ _ _ => .noiseReset) ∧
  ∀ s : State, ∃ t, exec .noiseReset s = .next t ∧ readReg t (.glob .noiseSeed) = 0x000056CE ∧
    Frame [.glob .noiseSeed] s t

/-- R281: the recurrence modulo 2^32, and the output by the core's NOISE_MAP, whichever it is (the parameter stands in
State, log entry 8); the output of either map is exact. -/
def Obligations.NoiseNextAdvancesTheSeed : Prop :=
  CommandWord 0x19 false false false 1 (fun _ _ _ => .noiseNext) ∧
  (∀ s : State, ∃ t, exec .noiseNext s = .next t ∧
    let seed := readReg t (.glob .noiseSeed)
    seed.toNat = (196314165 * (readReg s (.glob .noiseSeed)).toNat + 907633515) % 2 ^ 32 ∧
    readReg t (.glob .noiseOut) = noiseValue s.freeDraws s.noiseMap seed ∧
    Frame [.glob .noiseSeed, .glob .noiseOut] s t) ∧
  ∀ (k : Nat) (seed : Word),
    isFinite (noiseValue k .openInterval seed) = true ∧ isFinite (noiseValue k .upstream seed) = true ∧
    valueOf (noiseValue k .openInterval seed) = ((2 * (seed.toNat / 2 ^ 8) + 1 : ℕ) - 2 ^ 24 : ℚ) / 2 ^ 24 ∧
    valueOf (noiseValue k .upstream seed) = ((seed.toNat / 2 ^ 7 : ℕ) - 2 ^ 24 : ℚ) / 2 ^ 24

/-! ### LFO (spec/46_lfo.md) -/

/-- R290. -/
def Obligations.LfoResetClearsRunningState : Prop :=
  CommandWord 0x1C false false false 1 (fun _ _ _ => .lfoReset) ∧
  ∀ s : State, ∃ t, exec .lfoReset s = .next t ∧
    (∀ r ∈ ([.glob .lfoPhase, .glob .lfoStep, .glob .filterZip] : List Reg), readReg t r = 0x00000000) ∧
    Frame [.glob .lfoPhase, .glob .lfoStep, .glob .filterZip] s t

/-- R291 and R300: the countdown wraps and fires at 0 or below as int32; a tick that does not fire changes only LFO_STEP;
a firing one computes the modulation and pushes it, as the loop of R300 does, into the active voices. -/
def Obligations.LfoTickCountsAndFires : Prop :=
  CommandWord 0x1D false false false 1 (fun _ _ _ => .lfoTick) ∧
  ∀ s : State, ∃ t, exec .lfoTick s = .next t ∧ SamePorts s t ∧
    let k := s.freeDraws
    let g := fun r => readReg s (.glob r)
    let step := g .lfoStep - 1
    (0 < step.toInt → readReg t (.glob .lfoStep) = step ∧ SameRegsExcept [.glob .lfoStep] s t) ∧
    (step.toInt ≤ 0 → ∃ m : State, SamePorts s m ∧
      SameRegsExcept [.glob .lfoStep, .glob .lfoPhase, .glob .lfoSine, .glob .vibratoMod, .glob .pwmMod,
        .glob .lfoFmod, .glob .filterZip] s m ∧
      pushLoop voiceOrder m = .next t ∧
      let g' := fun r => readReg m (.glob r)
      let sum := fadd k (g .lfoPhase) (g .lfoInc)
      g' .lfoStep = 32 ∧
      g' .lfoPhase = (if fgt sum 0x40490FDB then fsub k sum 0x40C90FDB else sum) ∧
      g' .lfoSine = fsin (g' .lfoPhase) ∧
      g' .vibratoMod = fadd k 0x3F800000 (fmul k (g' .lfoSine) (fadd k (g .modWheel) (g .vibrato))) ∧
      g' .pwmMod = fadd k 0x3F800000 (fmul k (g' .lfoSine) (fadd k (g .modWheel) (g .pwmDepth))) ∧
      g' .lfoFmod = fadd k (fadd k (g .filterKeytrack) (g .filterCtl))
        (fmul k (fadd k (g .filterLfoDepth) (g .pressure)) (g' .lfoSine)) ∧
      g' .filterZip = fadd k (g .filterZip) (fmul k 0x3BA3D70A (fsub k (g' .lfoFmod) (g .filterZip))) ∧
      (∀ r : GReg, readReg t (.glob r) = readReg m (.glob r)) ∧
      (∀ (v : Fin 8) (r : Reg), activeBit s v = false → r.voice? = some v → readReg t r = readReg s r))

/-! ### Gain, mixer, sequencing, core reset (spec/47_mixer_gain.md) -/

/-- R314. -/
def Obligations.GainResetEndsTheRamp : Prop :=
  CommandWord 0x20 false false false 1 (fun _ _ _ => .gainReset) ∧
  ∀ s : State, ∃ t, exec .gainReset s = .next t ∧
    readReg t (.glob .gainCur) = readReg s (.glob .gainTarget) ∧ readReg t (.glob .gainCount) = 0 ∧
    Frame [.glob .gainCur, .glob .gainCount] s t

/-- R311. -/
def Obligations.GainSetStartsARamp : Prop :=
  CommandWord 0x21 false false false 2 (fun _ x _ => .gainSet x) ∧
  ∀ (s : State) (x : Word), ∃ t, exec (.gainSet x) s = .next t ∧
    let g := fun r => readReg s (.glob r)
    let g' := fun r => readReg t (.glob r)
    (feq x (g .gainTarget) = true → t = s) ∧
    (feq x (g .gainTarget) = false → (g .gainSteps).toInt ≤ 0 →
      g' .gainCur = x ∧ g' .gainTarget = x ∧ g' .gainCount = 0 ∧
      Frame [.glob .gainCur, .glob .gainTarget, .glob .gainCount] s t) ∧
    (feq x (g .gainTarget) = false → 0 < (g .gainSteps).toInt →
      g' .gainTarget = x ∧ g' .gainCount = g .gainSteps ∧
      g' .gainStep = fdiv s.freeDraws (fsub s.freeDraws x (g .gainCur)) (i2f (g .gainSteps)) ∧
      Frame [.glob .gainTarget, .glob .gainCount, .glob .gainStep] s t)

/-- R312. -/
def Obligations.GainNextStepsTheRamp : Prop :=
  CommandWord 0x22 false false false 1 (fun _ _ _ => .gainNext) ∧
  ∀ s : State, ∃ t, exec .gainNext s = .next t ∧
    let g := fun r => readReg s (.glob r)
    let g' := fun r => readReg t (.glob r)
    let count := g .gainCount - 1
    ((g .gainCount).toInt ≤ 0 → g' .gainOut = g .gainTarget ∧ Frame [.glob .gainOut] s t) ∧
    (0 < (g .gainCount).toInt →
      g' .gainCount = count ∧
      g' .gainCur =
        (if 0 < count.toInt then fadd s.freeDraws (g .gainCur) (g .gainStep) else g .gainTarget) ∧
      g' .gainOut = g' .gainCur ∧
      Frame [.glob .gainCount, .glob .gainCur, .glob .gainOut] s t)

/-- R313: after a GAIN_SET that starts a ramp of N steps, the k-th GAIN_NEXT before the N-th gives the start value plus k
rounded steps, and the N-th and every later one gives the target. -/
def Obligations.GainRampLandsOnTarget : Prop :=
  ∀ (s : State) (x : Word) (n : Nat),
    let steps := (readReg s (.glob .gainSteps)).toInt
    feq x (readReg s (.glob .gainTarget)) = false → 0 < steps → 0 < n →
    ∃ t, runAll (.gainSet x :: List.replicate n .gainNext) s = .next t ∧
      (steps ≤ n → readReg t (.glob .gainOut) = x ∧ readReg t (.glob .gainCur) = x ∧
        readReg t (.glob .gainCount) = 0) ∧
      ((n : Int) < steps → readReg t (.glob .gainOut) =
        (fun y => fadd s.freeDraws y (readReg t (.glob .gainStep)))^[n] (readReg s (.glob .gainCur)))

/-- R320. -/
def Obligations.BlockBeginLatchesActiveVoices : Prop :=
  CommandWord 0x24 false false false 1 (fun _ _ _ => .blockBegin) ∧
  ∀ s : State, ∃ t, exec .blockBegin s = .next t ∧ SamePorts s t ∧
    (∀ r : Reg, r.voice? = none → readReg t r = readReg s r) ∧
    ∀ v : Fin 8,
      (activeBit s v = false → ∀ r : Reg, r.voice? = some v → readReg t r = readReg s r) ∧
      (activeBit s v = true → ∃ s1, exec (.voicePeriod v) s = .next s1 ∧
        readReg t (.voice v .glideRate) = readReg s (.glob .glideRate) ∧
        readReg t (.voice v .filterQ) =
          fmul s.freeDraws (readReg s (.glob .filterQ)) (readReg s (.glob .resonanceCtl)) ∧
        readReg t (.voice v .pitchBend) = readReg s (.glob .pitchBend) ∧
        readReg t (.voice v .filterEnvDepth) = readReg s (.glob .filterEnvDepth) ∧
        ∀ r : Reg, r.voice? = some v → r ∉ ([.voice v .glideRate, .voice v .filterQ, .voice v .pitchBend,
          .voice v .filterEnvDepth] : List Reg) → readReg t r = readReg s1 r)

/-- R321 and R322: SAMPLE is LFO_TICK, NOISE_NEXT, the loop over the active voices in ascending order with its two sums,
GAIN_NEXT, and the output step with its mono fold. -/
def Obligations.SampleRunsThePerSampleOrder : Prop :=
  CommandWord 0x25 false false false 1 (fun _ _ _ => .sample) ∧
  ∀ s : State, ∃ s1 s2 s3 s4 t l r,
    let k := s.freeDraws
    let noise := fmul k (readReg s2 (.glob .noiseOut)) (readReg s (.glob .noiseMix))
    let l' := fmul k l (readReg s4 (.glob .gainOut))
    let r' := fmul k r (readReg s4 (.glob .gainOut))
    let mono := (readReg s (.glob .ctrl)).getLsbD 0
    exec .lfoTick s = .next s1 ∧ exec .noiseNext s1 = .next s2 ∧
    sampleLoop noise voiceOrder s2 0x00000000 0x00000000 = .next (s3, l, r) ∧ exec .gainNext s3 = .next s4 ∧
    exec .sample s = .next t ∧
    readReg t (.glob .mixL) = l ∧ readReg t (.glob .mixR) = r ∧
    readReg t (.glob .outL) = (if mono then fmul k (fadd k l' r') 0x3F000000 else l') ∧
    readReg t (.glob .outR) = (if mono then 0x00000000 else r') ∧
    SameRegsExcept [.glob .mixL, .glob .mixR, .glob .outL, .glob .outR] s4 t ∧ SamePorts s t

/-- R323. -/
def Obligations.BlockEndFreesSilentVoices : Prop :=
  CommandWord 0x26 false false false 1 (fun _ _ _ => .blockEnd) ∧
  ∀ s : State, ∃ t, exec .blockEnd s = .next t ∧ SamePorts s t ∧
    (∀ r : Reg, r.voice? = none → readReg t r = readReg s r) ∧
    ∀ v : Fin 8,
      (activeBit s v = true → ∀ r : Reg, r.voice? = some v → readReg t r = readReg s r) ∧
      (activeBit s v = false →
        (∀ r ∈ envDynamicRegs v 0 ++ filtResetRegs v, readReg t r = 0x00000000) ∧
        ∀ r : Reg, r.voice? = some v → r ∉ envDynamicRegs v 0 ++ filtResetRegs v → readReg t r = readReg s r)

/-- R324 and R361: CORE_RESET gives every register its power-on value but the ones R361 lists, which it keeps, and
GAIN_CUR, which it sets to GAIN_TARGET; right after power-on it changes nothing. -/
def Obligations.CoreResetKeepsTheListedRegisters : Prop :=
  CommandWord 0x03 false false false 1 (fun _ _ _ => .coreReset) ∧
  (∀ s : State, ∃ t, exec .coreReset s = .next t ∧ SamePorts s t ∧ ∀ r : Reg, readReg t r =
    (if keptByCoreReset r then readReg s r
      else if r = .glob .gainCur then readReg s (.glob .gainTarget) else powerOnValue r)) ∧
  exec .coreReset State.reset = .next State.reset

/-! ### Invariants -/

/-- Every step keeps the invariant: CAUSE, ILL and ILL_WORD agree (R52, R341, I14), GAIN_COUNT is not negative and at 0
GAIN_CUR equals GAIN_TARGET bit for bit (R61), and the decoder collects only for a legal command word, at most the data
words it takes (R58). -/
def Obligations.StepKeepsTheInvariant : Prop :=
  ∀ s t : State, Inv s → step s = .next t → Inv t

/-- The invariant holds at reset. -/
def Obligations.ResetMeetsTheInvariant : Prop := Inv State.reset

/-! ### Arithmetic (R12 to R17) -/

/-- R13 for finite operands: each operation is the exact result rounded once, to nearest, ties to even, with IEEE's sign of
an exact zero, and then flushed as DENORMAL_MODE says (R14); `x / 0` is an infinity and `0 / 0` a NaN. That a result is
flushed after it has been rounded is the model's reading (log entry 6). -/
def Obligations.FiniteArithmeticRoundsOnce : Prop :=
  ∀ (k : Nat) (a b : Word), isFinite a = true → isFinite b = true →
    let x := operandValue a
    let y := operandValue b
    (∃ r, RoundsTo (x + y) r ∧ (x + y = 0 → signBit r = (signBit a && signBit b)) ∧
      fadd k a b = flushSubnormal r) ∧
    (∃ r, RoundsTo (x - y) r ∧ (x - y = 0 → signBit r = (signBit a && !signBit b)) ∧
      fsub k a b = flushSubnormal r) ∧
    (∃ r, RoundsTo (x * y) r ∧ (x * y = 0 → signBit r = (signBit a ^^ signBit b)) ∧
      fmul k a b = flushSubnormal r) ∧
    (y ≠ 0 → ∃ r, RoundsTo (x / y) r ∧ (x / y = 0 → signBit r = (signBit a ^^ signBit b)) ∧
      fdiv k a b = flushSubnormal r) ∧
    (y = 0 → x ≠ 0 → fdiv k a b = infOf (signBit a ^^ signBit b)) ∧
    (y = 0 → x = 0 → isQuietNaN (fdiv k a b) = true)

/-- R13 for NaN and infinite operands: NaN operands and `inf - inf`, `0 * inf`, `inf / inf` give quiet NaNs, and an
infinity is kept otherwise, with IEEE's sign. -/
def Obligations.SpecialOperandsFollowIeee : Prop :=
  ∀ (k : Nat) (a b : Word),
    (isNaN a = true ∨ isNaN b = true → isQuietNaN (fadd k a b) = true ∧ isQuietNaN (fsub k a b) = true ∧
      isQuietNaN (fmul k a b) = true ∧ isQuietNaN (fdiv k a b) = true) ∧
    (isInf a = true → isFinite b = true → fadd k a b = a ∧ fsub k a b = a ∧
      fdiv k a b = infOf (signBit a ^^ signBit b) ∧
      (operandValue b ≠ 0 → fmul k a b = infOf (signBit a ^^ signBit b)) ∧
      (operandValue b = 0 → isQuietNaN (fmul k a b) = true)) ∧
    (isFinite a = true → isInf b = true → fadd k a b = b ∧ fsub k a b = fneg b ∧
      fdiv k a b = zeroOf (signBit a ^^ signBit b) ∧
      (operandValue a ≠ 0 → fmul k a b = infOf (signBit a ^^ signBit b)) ∧
      (operandValue a = 0 → isQuietNaN (fmul k a b) = true)) ∧
    (isInf a = true → isInf b = true →
      (signBit a = signBit b → fadd k a b = a ∧ isQuietNaN (fsub k a b) = true) ∧
      (signBit a ≠ signBit b → isQuietNaN (fadd k a b) = true ∧ fsub k a b = a) ∧
      fmul k a b = infOf (signBit a ^^ signBit b) ∧ isQuietNaN (fdiv k a b) = true)

/-- R15: the comparisons are those of the numbers, false with a NaN; floor is exact; clamp is its definition. -/
def Obligations.ComparisonsFloorAndClamp : Prop :=
  (∀ a b : Word, isNaN a = true ∨ isNaN b = true →
    flt a b = false ∧ fle a b = false ∧ fgt a b = false ∧ fge a b = false ∧ feq a b = false) ∧
  (∀ a b : Word, isNaN a = false → isNaN b = false →
    flt a b = decide (orderValue a < orderValue b) ∧ fle a b = decide (orderValue a ≤ orderValue b) ∧
    fgt a b = decide (orderValue b < orderValue a) ∧ fge a b = decide (orderValue b ≤ orderValue a) ∧
    feq a b = decide (orderValue a = orderValue b)) ∧
  (∀ a : Word, isFinite a = false → ffloor a = a) ∧
  (∀ a : Word, isFinite a = true → isFinite (ffloor a) = true ∧ valueOf (ffloor a) = (⌊operandValue a⌋ : ℚ) ∧
    (operandValue a = 0 → ffloor a = flushSubnormal a)) ∧
  (∀ v lo hi : Word, clamp v lo hi = (if flt v lo then lo else if flt hi v then hi else v))

/-- R17: `i2f` rounds an int32 to nearest even, and is exact up to 2^24. -/
def Obligations.IntToFloatRoundsToNearest : Prop :=
  ∀ n : Word, RoundsTo (n.toInt : ℚ) (i2f n) ∧ (n = 0 → i2f n = 0) ∧
    (n.toInt.natAbs ≤ 2 ^ 24 → valueOf (i2f n) = (n.toInt : ℚ))

/-- R14: no operation, no conversion and no configuration function writes a subnormal that DENORMAL_MODE would flush, and
every operation, comparison, `floor` and configuration function reads an operand as the flushed one. (For + - * / that is
said of every result that is a number; a NaN is a NaN both times, and its pattern is free, log entry 5.) -/
def Obligations.ResultsFollowDenormalMode : Prop :=
  let same := fun x y : Word => isNaN x = isNaN y ∧ (isNaN x = false → x = y)
  (∀ (k : Nat) (a b : Word), same (fadd k (flushSubnormal a) (flushSubnormal b)) (fadd k a b) ∧
    same (fsub k (flushSubnormal a) (flushSubnormal b)) (fsub k a b) ∧
    same (fmul k (flushSubnormal a) (flushSubnormal b)) (fmul k a b) ∧
    same (fdiv k (flushSubnormal a) (flushSubnormal b)) (fdiv k a b)) ∧
  (∀ (k : Nat) (a b : Word), flushSubnormal (fadd k a b) = fadd k a b ∧ flushSubnormal (fsub k a b) = fsub k a b ∧
    flushSubnormal (fmul k a b) = fmul k a b ∧ flushSubnormal (fdiv k a b) = fdiv k a b) ∧
  (∀ a : Word, flushSubnormal (ffloor a) = ffloor a ∧ flushSubnormal (i2f a) = i2f a ∧
    flushSubnormal (fsin a) = fsin a ∧ flushSubnormal (fcos a) = fcos a ∧ flushSubnormal (ftan a) = ftan a ∧
    flushSubnormal (fexp a) = fexp a) ∧
  (∀ a b : Word, flt (flushSubnormal a) (flushSubnormal b) = flt a b ∧
    fle (flushSubnormal a) (flushSubnormal b) = fle a b ∧ feq (flushSubnormal a) (flushSubnormal b) = feq a b) ∧
  (∀ a : Word, ffloor (flushSubnormal a) = ffloor a ∧ fsin (flushSubnormal a) = fsin a ∧
    fcos (flushSubnormal a) = fcos a ∧ ftan (flushSubnormal a) = ftan a ∧ fexp (flushSubnormal a) = fexp a) ∧
  (∀ a : Word, flushSubnormal a =
    (if expField a = 0 ∧ fracField a ≠ 0 ∧ Config.denormalMode = .ftzDaz then a &&& 0x80000000 else a))
end

