-- ==== Sys2Proof/Laws/Decode.lean ====
section
/-! SUPPORT. The fields of an encoded command word are the ones it was built from. -/

namespace Sys2Proof

section Fields

variable {op : Nat} (hop : op < 64) (v : Fin 8) (u : Fin 2) (a : Addr)

include hop in
theorem toNat_cmdWord :
    (cmdWord op v u a).toNat = op * 2 ^ 26 + v.val * 2 ^ 23 + u.val * 2 ^ 22 + a.toNat := by
  have hv := v.isLt
  have hu := u.isLt
  have ha := a.isLt
  rw [cmdWord, BitVec.toNat_ofNat, Nat.mod_eq_of_lt]
  omega

include hop in
theorem opField_cmdWord : opField (cmdWord op v u a) = op := by
  have hv := v.isLt
  have hu := u.isLt
  have ha := a.isLt
  rw [opField, toNat_cmdWord hop]
  omega

include hop in
theorem vField_cmdWord : vField (cmdWord op v u a) = v := by
  have hv := v.isLt
  have hu := u.isLt
  have ha := a.isLt
  apply Fin.ext
  simp only [vField, toNat_cmdWord hop]
  omega

include hop in
theorem uField_cmdWord : uField (cmdWord op v u a) = u := by
  have hv := v.isLt
  have hu := u.isLt
  have ha := a.isLt
  apply Fin.ext
  simp only [uField, toNat_cmdWord hop]
  omega

include hop in
theorem zField_cmdWord : zField (cmdWord op v u a) = 0 := by
  have hv := v.isLt
  have hu := u.isLt
  have ha := a.isLt
  rw [zField, toNat_cmdWord hop]
  omega

include hop in
theorem aField_cmdWord : aField (cmdWord op v u a) = a := by
  have ha := a.isLt
  apply BitVec.eq_of_toNat_eq
  rw [aField, toNat_cmdWord hop, BitVec.toNat_ofNat]
  omega

end Fields

/-- The opcode of a command in R136. -/
def opcodeOf : Instr → Nat
  | .nop => 0x00 | .regWr _ _ => 0x01 | .regRd _ => 0x02 | .coreReset => 0x03 | .voiceReset _ => 0x04
  | .envReset _ _ => 0x08 | .envAttack _ _ => 0x09 | .envRelease _ _ => 0x0A | .envNext _ _ => 0x0B
  | .oscReset _ _ => 0x0C | .oscNext _ _ => 0x0D | .filtReset _ => 0x10 | .filtCoef _ _ _ => 0x11
  | .filtRender _ _ => 0x12 | .voiceRender _ _ => 0x14 | .voiceCtrl _ => 0x15 | .voicePan _ => 0x16
  | .voicePeriod _ => 0x17 | .noiseReset => 0x18 | .noiseNext => 0x19 | .lfoReset => 0x1C | .lfoTick => 0x1D
  | .gainReset => 0x20 | .gainSet _ => 0x21 | .gainNext => 0x22 | .blockBegin => 0x24 | .sample => 0x25
  | .blockEnd => 0x26

theorem opField_encodeCmd (i : Instr) : opField (encodeCmd i) = opcodeOf i := by
  cases i <;> exact opField_cmdWord (by decide) _ _ _

theorem checked_eq_ok_iff (bv bu ba : Bool) (w : Word) (i j : Instr) :
    checked bv bu ba w i = .ok j ↔ fieldsOk bv bu ba w = true ∧ i = j := by
  unfold checked
  split <;> simp [*]

theorem checked_eq_error_iff (bv bu ba : Bool) (w : Word) (i : Instr) (r : Reject) :
    checked bv bu ba w i = .error r ↔ fieldsOk bv bu ba w = false ∧ .badField = r := by
  unfold checked
  split <;> simp [*]

/-- Whether a command word is rejected, and why, does not depend on the data words. -/
theorem decodeCmd_error_iff (w d0 d1 : Word) (r : Reject) :
    decodeCmd w d0 d1 = .error r ↔ decodeCmd w 0 0 = .error r := by
  unfold decodeCmd
  split <;> simp only [checked_eq_error_iff]

end Sys2Proof
end

