-- ==== Sys2Proof/Laws/Float.lean ====
section
/-! SUPPORT. What the arithmetic of Machine/Float.lean and Machine/Flags.lean can answer: the fields of the patterns it
packs, the free NaN, the flush of subnormals, and one equation for each operation on unpacked operands. -/

namespace Sys2Proof.Machine

/-! ### Patterns -/

theorem toNat_signed {m : Nat} (neg : Bool) (h : m < 2 ^ 31) :
    (signed neg m).toNat = m + if neg then 2 ^ 31 else 0 := by
  rw [signed, BitVec.toNat_ofNat, Nat.mod_eq_of_lt]
  split <;> omega

theorem expField_signed {m : Nat} (neg : Bool) (h : m < 2 ^ 31) : expField (signed neg m) = m / 2 ^ 23 := by
  rw [expField, toNat_signed neg h]
  split <;> omega

theorem fracField_signed {m : Nat} (neg : Bool) (h : m < 2 ^ 31) : fracField (signed neg m) = m % 2 ^ 23 := by
  rw [fracField, toNat_signed neg h]
  split <;> omega

theorem signBit_signed {m : Nat} (neg : Bool) (h : m < 2 ^ 31) : signBit (signed neg m) = neg := by
  rw [signBit, BitVec.msb_eq_decide, toNat_signed neg h]
  cases neg
  · simp; omega
  · simp

@[simp] theorem fneg_fneg (a : Word) : fneg (fneg a) = a := by
  simp [fneg]

/-- Every NaN an operation produces is a NaN, whatever the free bits are. -/
@[simp] theorem isNaN_quietNaN (k : Nat) (op : FpOp) (a b : Word) : isNaN (quietNaN k op a b) = true := by
  have h : (quietNaN k op a b).toNat =
      (Config.nanBits k op a b).toNat / 2 ^ 22 % 2 * 2 ^ 31 + 0x1FF * 2 ^ 22 +
        (Config.nanBits k op a b).toNat % 2 ^ 22 := by
    simp only [quietNaN, BitVec.toNat_append, BitVec.extractLsb'_toNat, BitVec.toNat_ofNat, Nat.shiftRight_eq_div_pow]
    rw [← Nat.shiftLeft_add_eq_or_of_lt (by omega), ← Nat.shiftLeft_add_eq_or_of_lt (by omega)]
    simp only [Nat.shiftLeft_eq]
    omega
  simp only [isNaN, expField, fracField, h]
  have h1 := Nat.mod_lt ((Config.nanBits k op a b).toNat) (show 0 < 2 ^ 22 by decide)
  have h2 := Nat.mod_lt ((Config.nanBits k op a b).toNat / 2 ^ 22) (show 0 < 2 by decide)
  simp only [Bool.and_eq_true, beq_iff_eq, bne_iff_ne]
  omega

/-! ### The flush of subnormals -/

@[simp] theorem flushSubnormal_of_not {a : Word} (h : isSubnormal a = false) : flushSubnormal a = a := by
  simp [flushSubnormal, h]

/-- The flush leaves a pattern alone or makes it a zero of its sign. -/
theorem flushSubnormal_cases (a : Word) :
    flushSubnormal a = a ∨ (isSubnormal a = true ∧ flushSubnormal a = zeroOf (signBit a)) := by
  unfold flushSubnormal
  split
  · next h =>
    cases Config.denormalMode
    · exact .inl rfl
    · exact .inr ⟨h, rfl⟩
  · exact .inl rfl

/-- The flush, done twice, is the flush. -/
@[simp] theorem flushSubnormal_idem (a : Word) : flushSubnormal (flushSubnormal a) = flushSubnormal a := by
  by_cases h : isSubnormal a = true
  · rcases flushSubnormal_cases a with e | ⟨-, e⟩
    · rw [e, e]
    · rw [e, flushSubnormal_of_not (by cases signBit a <;> decide)]
  · rw [flushSubnormal_of_not (a := a) (by simpa using h), flushSubnormal_of_not (by simpa using h)]

/-- A configuration function reads and writes no subnormal that the mode would flush. -/
@[simp] theorem flushSubnormal_configured (f : Word → Word) (x : Word) :
    flushSubnormal (configured f x) = configured f x := by
  simp [configured]

@[simp] theorem configured_flushSubnormal (f : Word → Word) (x : Word) :
    configured f (flushSubnormal x) = configured f x := by
  simp [configured]

/-- An operand is read as the flushed one is. -/
@[simp] theorem operand_flushSubnormal (a : Word) : operand (flushSubnormal a) = operand a := by
  simp [operand]

/-! ### Rounding -/

/-- The magnitude `roundRat` packs never passes the infinity's. -/
theorem roundRat_magnitude (neg : Bool) (p q : Nat) :
    ∃ m, m ≤ 0x7F800000 ∧ roundRat neg p q = signed neg m :=
  ⟨_, Nat.min_le_right _ _, rfl⟩

@[simp] theorem signBit_roundRat (neg : Bool) (p q : Nat) : signBit (roundRat neg p q) = neg := by
  obtain ⟨m, hm, h⟩ := roundRat_magnitude neg p q
  rw [h, signBit_signed neg (by omega)]

@[simp] theorem isNaN_roundRat (neg : Bool) (p q : Nat) : isNaN (roundRat neg p q) = false := by
  obtain ⟨m, hm, h⟩ := roundRat_magnitude neg p q
  rw [h, isNaN, expField_signed neg (by omega), fracField_signed neg (by omega)]
  simp only [Bool.and_eq_false_iff, beq_eq_false_iff_ne, bne_eq_false_iff_eq]
  omega

/-! ### The operations on unpacked operands -/

section Operations

variable {k : Nat} {a b : Word} {x y : Bool} {m n : Nat}

theorem fadd_fin (ha : operand a = .fin x m) (hb : operand b = .fin y n) :
    fadd k a b = roundFlush
      (if signedInt x m + signedInt y n = 0 then x && y else decide (signedInt x m + signedInt y n < 0))
      (signedInt x m + signedInt y n).natAbs 1 := by
  simp [fadd, ha, hb, addVal]

theorem fsub_fin (ha : operand a = .fin x m) (hb : operand b = .fin y n) :
    fsub k a b = roundFlush
      (if signedInt x m + signedInt (!y) n = 0 then x && !y else decide (signedInt x m + signedInt (!y) n < 0))
      (signedInt x m + signedInt (!y) n).natAbs 1 := by
  simp [fsub, ha, hb, addVal, FVal.negate]

theorem fmul_fin (ha : operand a = .fin x m) (hb : operand b = .fin y n) :
    fmul k a b = roundFlush (x ^^ y) (m * n) (2 ^ 149) := by
  simp [fmul, ha, hb, mulVal]

theorem fdiv_fin (ha : operand a = .fin x m) (hb : operand b = .fin y n) (hn : n ≠ 0) :
    fdiv k a b = roundFlush (x ^^ y) (m * 2 ^ 149) n := by
  simp [fdiv, ha, hb, divVal, hn]

theorem fadd_nan_left (ha : operand a = .nan) : fadd k a b = quietNaN k .add a b := by
  simp [fadd, ha, addVal]

theorem fsub_nan_left (ha : operand a = .nan) : fsub k a b = quietNaN k .sub a b := by
  simp [fsub, ha, addVal]

theorem fmul_nan_left (ha : operand a = .nan) : fmul k a b = quietNaN k .mul a b := by
  simp [fmul, ha, mulVal]

theorem fdiv_nan_left (ha : operand a = .nan) : fdiv k a b = quietNaN k .div a b := by
  simp [fdiv, ha, divVal]

theorem fadd_nan_right (hb : operand b = .nan) : fadd k a b = quietNaN k .add a b := by
  cases h : operand a <;> simp [fadd, h, hb, addVal]

theorem fsub_nan_right (hb : operand b = .nan) : fsub k a b = quietNaN k .sub a b := by
  cases h : operand a <;> simp [fsub, h, hb, addVal, FVal.negate]

theorem fmul_nan_right (hb : operand b = .nan) : fmul k a b = quietNaN k .mul a b := by
  cases h : operand a <;> simp [fmul, h, hb, mulVal]

theorem fdiv_nan_right (hb : operand b = .nan) : fdiv k a b = quietNaN k .div a b := by
  cases h : operand a <;> simp [fdiv, h, hb, divVal]

end Operations

/-! ### Comparisons (R15: each is false if an operand is a NaN) -/

theorem orderKey_eq_none_iff (a : Word) : orderKey a = none ↔ isNaN a = true := by
  simp [orderKey]

theorem flt_of_keys {a b : Word} {x y : Int} (ha : orderKey a = some x) (hb : orderKey b = some y) :
    flt a b = decide (x < y) := by
  simp [flt, ha, hb]

theorem fle_of_keys {a b : Word} {x y : Int} (ha : orderKey a = some x) (hb : orderKey b = some y) :
    fle a b = decide (x ≤ y) := by
  simp [fle, ha, hb]

theorem feq_of_keys {a b : Word} {x y : Int} (ha : orderKey a = some x) (hb : orderKey b = some y) :
    feq a b = decide (x = y) := by
  simp [feq, ha, hb]

theorem flt_nan_left {a b : Word} (h : isNaN a = true) : flt a b = false := by
  simp [flt, (orderKey_eq_none_iff a).mpr h]

theorem flt_nan_right {a b : Word} (h : isNaN b = true) : flt a b = false := by
  cases ha : orderKey a <;> simp [flt, ha, (orderKey_eq_none_iff b).mpr h]

theorem fle_nan_left {a b : Word} (h : isNaN a = true) : fle a b = false := by
  simp [fle, (orderKey_eq_none_iff a).mpr h]

theorem fle_nan_right {a b : Word} (h : isNaN b = true) : fle a b = false := by
  cases ha : orderKey a <;> simp [fle, ha, (orderKey_eq_none_iff b).mpr h]

end Sys2Proof.Machine
end

