-- ==== Sys2Proof/Laws/State.lean ====
section
/-! SUPPORT. One lemma for each field of each update of the state, and for each selection of a unit after an update of a
unit, so that no later proof unfolds a record update. -/

namespace Sys2Proof.Machine

/-! ### Voices -/

@[simp] theorem Voices.get_set_self (vs : Voices) (v : Fin 8) (vo : Voice) : (vs.set v vo).get v = vo := by
  fin_cases v <;> rfl

theorem Voices.get_set_ne (vs : Voices) {v w : Fin 8} (vo : Voice) (h : w ≠ v) : (vs.set v vo).get w = vs.get w := by
  revert h
  fin_cases v <;> fin_cases w <;> first | (intro _; rfl) | (intro h; exact absurd rfl h)

@[simp] theorem Voices.get_map (f : Voice → Voice) (vs : Voices) (v : Fin 8) : (vs.map f).get v = f (vs.get v) := by
  fin_cases v <;> rfl

theorem Voices.ext_get {vs ws : Voices} (h : ∀ v, vs.get v = ws.get v) : vs = ws := by
  cases vs; cases ws
  have h0 := h 0; have h1 := h 1; have h2 := h 2; have h3 := h 3
  have h4 := h 4; have h5 := h 5; have h6 := h 6; have h7 := h 7
  simp only [Voices.get] at h0 h1 h2 h3 h4 h5 h6 h7
  simp only [*]

@[simp] theorem Voices.get_reset (v : Fin 8) : Voices.reset.get v = Voice.reset := by
  fin_cases v <;> rfl

theorem Voices.toList_eq_map_get (vs : Voices) : vs.toList = [0, 1, 2, 3, 4, 5, 6, 7].map vs.get := rfl

/-! ### Units of a voice -/

@[simp] theorem Voice.updOsc_note (vo : Voice) (u : Fin 2) (h : Oscillator → Oscillator) :
    (vo.updOsc u h).note = vo.note := by
  fin_cases u <;> rfl

@[simp] theorem Voice.updOsc_saw (vo : Voice) (u : Fin 2) (h : Oscillator → Oscillator) :
    (vo.updOsc u h).saw = vo.saw := by
  fin_cases u <;> rfl

@[simp] theorem Voice.updOsc_period (vo : Voice) (u : Fin 2) (h : Oscillator → Oscillator) :
    (vo.updOsc u h).period = vo.period := by
  fin_cases u <;> rfl

@[simp] theorem Voice.updOsc_target (vo : Voice) (u : Fin 2) (h : Oscillator → Oscillator) :
    (vo.updOsc u h).target = vo.target := by
  fin_cases u <;> rfl

@[simp] theorem Voice.updOsc_glideRate (vo : Voice) (u : Fin 2) (h : Oscillator → Oscillator) :
    (vo.updOsc u h).glideRate = vo.glideRate := by
  fin_cases u <;> rfl

@[simp] theorem Voice.updOsc_panLeft (vo : Voice) (u : Fin 2) (h : Oscillator → Oscillator) :
    (vo.updOsc u h).panLeft = vo.panLeft := by
  fin_cases u <;> rfl

@[simp] theorem Voice.updOsc_panRight (vo : Voice) (u : Fin 2) (h : Oscillator → Oscillator) :
    (vo.updOsc u h).panRight = vo.panRight := by
  fin_cases u <;> rfl

@[simp] theorem Voice.updOsc_cutoff (vo : Voice) (u : Fin 2) (h : Oscillator → Oscillator) :
    (vo.updOsc u h).cutoff = vo.cutoff := by
  fin_cases u <;> rfl

@[simp] theorem Voice.updOsc_filterMod (vo : Voice) (u : Fin 2) (h : Oscillator → Oscillator) :
    (vo.updOsc u h).filterMod = vo.filterMod := by
  fin_cases u <;> rfl

@[simp] theorem Voice.updOsc_filterQ (vo : Voice) (u : Fin 2) (h : Oscillator → Oscillator) :
    (vo.updOsc u h).filterQ = vo.filterQ := by
  fin_cases u <;> rfl

@[simp] theorem Voice.updOsc_pitchBend (vo : Voice) (u : Fin 2) (h : Oscillator → Oscillator) :
    (vo.updOsc u h).pitchBend = vo.pitchBend := by
  fin_cases u <;> rfl

@[simp] theorem Voice.updOsc_filterEnvDepth (vo : Voice) (u : Fin 2) (h : Oscillator → Oscillator) :
    (vo.updOsc u h).filterEnvDepth = vo.filterEnvDepth := by
  fin_cases u <;> rfl

@[simp] theorem Voice.updOsc_voiceOut (vo : Voice) (u : Fin 2) (h : Oscillator → Oscillator) :
    (vo.updOsc u h).voiceOut = vo.voiceOut := by
  fin_cases u <;> rfl

@[simp] theorem Voice.updOsc_cutoffMod (vo : Voice) (u : Fin 2) (h : Oscillator → Oscillator) :
    (vo.updOsc u h).cutoffMod = vo.cutoffMod := by
  fin_cases u <;> rfl

@[simp] theorem Voice.updOsc_filt (vo : Voice) (u : Fin 2) (h : Oscillator → Oscillator) :
    (vo.updOsc u h).filt = vo.filt := by
  fin_cases u <;> rfl

@[simp] theorem Voice.updOsc_osc_self (vo : Voice) (u : Fin 2) (h : Oscillator → Oscillator) :
    (vo.updOsc u h).osc u = h (vo.osc u) := by
  fin_cases u <;> rfl

theorem Voice.updOsc_osc_ne (vo : Voice) {u w : Fin 2} (h : Oscillator → Oscillator) (hw : w ≠ u) :
    (vo.updOsc u h).osc w = vo.osc w := by
  revert hw
  fin_cases u <;> fin_cases w <;> first | (intro _; rfl) | (intro h; exact absurd rfl h)

@[simp] theorem Voice.updOsc_env (vo : Voice) (u : Fin 2) (h : Oscillator → Oscillator) (w : Fin 2) :
    (vo.updOsc u h).env w = vo.env w := by
  fin_cases u <;> fin_cases w <;> rfl

@[simp] theorem Voice.updEnv_note (vo : Voice) (u : Fin 2) (h : Envelope → Envelope) :
    (vo.updEnv u h).note = vo.note := by
  fin_cases u <;> rfl

@[simp] theorem Voice.updEnv_saw (vo : Voice) (u : Fin 2) (h : Envelope → Envelope) :
    (vo.updEnv u h).saw = vo.saw := by
  fin_cases u <;> rfl

@[simp] theorem Voice.updEnv_period (vo : Voice) (u : Fin 2) (h : Envelope → Envelope) :
    (vo.updEnv u h).period = vo.period := by
  fin_cases u <;> rfl

@[simp] theorem Voice.updEnv_target (vo : Voice) (u : Fin 2) (h : Envelope → Envelope) :
    (vo.updEnv u h).target = vo.target := by
  fin_cases u <;> rfl

@[simp] theorem Voice.updEnv_glideRate (vo : Voice) (u : Fin 2) (h : Envelope → Envelope) :
    (vo.updEnv u h).glideRate = vo.glideRate := by
  fin_cases u <;> rfl

@[simp] theorem Voice.updEnv_panLeft (vo : Voice) (u : Fin 2) (h : Envelope → Envelope) :
    (vo.updEnv u h).panLeft = vo.panLeft := by
  fin_cases u <;> rfl

@[simp] theorem Voice.updEnv_panRight (vo : Voice) (u : Fin 2) (h : Envelope → Envelope) :
    (vo.updEnv u h).panRight = vo.panRight := by
  fin_cases u <;> rfl

@[simp] theorem Voice.updEnv_cutoff (vo : Voice) (u : Fin 2) (h : Envelope → Envelope) :
    (vo.updEnv u h).cutoff = vo.cutoff := by
  fin_cases u <;> rfl

@[simp] theorem Voice.updEnv_filterMod (vo : Voice) (u : Fin 2) (h : Envelope → Envelope) :
    (vo.updEnv u h).filterMod = vo.filterMod := by
  fin_cases u <;> rfl

@[simp] theorem Voice.updEnv_filterQ (vo : Voice) (u : Fin 2) (h : Envelope → Envelope) :
    (vo.updEnv u h).filterQ = vo.filterQ := by
  fin_cases u <;> rfl

@[simp] theorem Voice.updEnv_pitchBend (vo : Voice) (u : Fin 2) (h : Envelope → Envelope) :
    (vo.updEnv u h).pitchBend = vo.pitchBend := by
  fin_cases u <;> rfl

@[simp] theorem Voice.updEnv_filterEnvDepth (vo : Voice) (u : Fin 2) (h : Envelope → Envelope) :
    (vo.updEnv u h).filterEnvDepth = vo.filterEnvDepth := by
  fin_cases u <;> rfl

@[simp] theorem Voice.updEnv_voiceOut (vo : Voice) (u : Fin 2) (h : Envelope → Envelope) :
    (vo.updEnv u h).voiceOut = vo.voiceOut := by
  fin_cases u <;> rfl

@[simp] theorem Voice.updEnv_cutoffMod (vo : Voice) (u : Fin 2) (h : Envelope → Envelope) :
    (vo.updEnv u h).cutoffMod = vo.cutoffMod := by
  fin_cases u <;> rfl

@[simp] theorem Voice.updEnv_filt (vo : Voice) (u : Fin 2) (h : Envelope → Envelope) :
    (vo.updEnv u h).filt = vo.filt := by
  fin_cases u <;> rfl

@[simp] theorem Voice.updEnv_env_self (vo : Voice) (u : Fin 2) (h : Envelope → Envelope) :
    (vo.updEnv u h).env u = h (vo.env u) := by
  fin_cases u <;> rfl

theorem Voice.updEnv_env_ne (vo : Voice) {u w : Fin 2} (h : Envelope → Envelope) (hw : w ≠ u) :
    (vo.updEnv u h).env w = vo.env w := by
  revert hw
  fin_cases u <;> fin_cases w <;> first | (intro _; rfl) | (intro h; exact absurd rfl h)

@[simp] theorem Voice.updEnv_osc (vo : Voice) (u : Fin 2) (h : Envelope → Envelope) (w : Fin 2) :
    (vo.updEnv u h).osc w = vo.osc w := by
  fin_cases u <;> fin_cases w <;> rfl

@[simp] theorem Voice.updFilt_note (vo : Voice) (h : Filter → Filter) : (vo.updFilt h).note = vo.note := rfl

@[simp] theorem Voice.updFilt_saw (vo : Voice) (h : Filter → Filter) : (vo.updFilt h).saw = vo.saw := rfl

@[simp] theorem Voice.updFilt_period (vo : Voice) (h : Filter → Filter) : (vo.updFilt h).period = vo.period := rfl

@[simp] theorem Voice.updFilt_target (vo : Voice) (h : Filter → Filter) : (vo.updFilt h).target = vo.target := rfl

@[simp] theorem Voice.updFilt_glideRate (vo : Voice) (h : Filter → Filter) : (vo.updFilt h).glideRate = vo.glideRate := rfl

@[simp] theorem Voice.updFilt_panLeft (vo : Voice) (h : Filter → Filter) : (vo.updFilt h).panLeft = vo.panLeft := rfl

@[simp] theorem Voice.updFilt_panRight (vo : Voice) (h : Filter → Filter) : (vo.updFilt h).panRight = vo.panRight := rfl

@[simp] theorem Voice.updFilt_cutoff (vo : Voice) (h : Filter → Filter) : (vo.updFilt h).cutoff = vo.cutoff := rfl

@[simp] theorem Voice.updFilt_filterMod (vo : Voice) (h : Filter → Filter) : (vo.updFilt h).filterMod = vo.filterMod := rfl

@[simp] theorem Voice.updFilt_filterQ (vo : Voice) (h : Filter → Filter) : (vo.updFilt h).filterQ = vo.filterQ := rfl

@[simp] theorem Voice.updFilt_pitchBend (vo : Voice) (h : Filter → Filter) : (vo.updFilt h).pitchBend = vo.pitchBend := rfl

@[simp] theorem Voice.updFilt_filterEnvDepth (vo : Voice) (h : Filter → Filter) : (vo.updFilt h).filterEnvDepth = vo.filterEnvDepth := rfl

@[simp] theorem Voice.updFilt_voiceOut (vo : Voice) (h : Filter → Filter) : (vo.updFilt h).voiceOut = vo.voiceOut := rfl

@[simp] theorem Voice.updFilt_cutoffMod (vo : Voice) (h : Filter → Filter) : (vo.updFilt h).cutoffMod = vo.cutoffMod := rfl

@[simp] theorem Voice.updFilt_filt (vo : Voice) (h : Filter → Filter) : (vo.updFilt h).filt = h vo.filt := rfl

@[simp] theorem Voice.updFilt_osc (vo : Voice) (h : Filter → Filter) (w : Fin 2) : (vo.updFilt h).osc w = vo.osc w := by
  fin_cases w <;> rfl

@[simp] theorem Voice.updFilt_env (vo : Voice) (h : Filter → Filter) (w : Fin 2) : (vo.updFilt h).env w = vo.env w := by
  fin_cases w <;> rfl

/-! ### Fields of the state -/

@[simp] theorem State.updGlobals_g (s : State) (f : Globals → Globals) : (s.updGlobals f).g = f s.g := rfl

@[simp] theorem State.updGlobals_voices (s : State) (f : Globals → Globals) : (s.updGlobals f).voices = s.voices := rfl

@[simp] theorem State.updGlobals_dec (s : State) (f : Globals → Globals) : (s.updGlobals f).dec = s.dec := rfl

@[simp] theorem State.updGlobals_inputs (s : State) (f : Globals → Globals) : (s.updGlobals f).inputs = s.inputs := rfl

@[simp] theorem State.updGlobals_response (s : State) (f : Globals → Globals) : (s.updGlobals f).response = s.response := rfl

@[simp] theorem State.updGlobals_freeDraws (s : State) (f : Globals → Globals) : (s.updGlobals f).freeDraws = s.freeDraws := rfl
@[simp] theorem State.updGlobals_noiseMap (s : State) (f : Globals → Globals) : (s.updGlobals f).noiseMap = s.noiseMap := rfl

@[simp] theorem State.updVoice_g (s : State) (v : Fin 8) (f : Voice → Voice) : (s.updVoice v f).g = s.g := rfl

@[simp] theorem State.updVoice_voices (s : State) (v : Fin 8) (f : Voice → Voice) : (s.updVoice v f).voices = s.voices.set v (f (s.voices.get v)) := rfl

@[simp] theorem State.updVoice_dec (s : State) (v : Fin 8) (f : Voice → Voice) : (s.updVoice v f).dec = s.dec := rfl

@[simp] theorem State.updVoice_inputs (s : State) (v : Fin 8) (f : Voice → Voice) : (s.updVoice v f).inputs = s.inputs := rfl

@[simp] theorem State.updVoice_response (s : State) (v : Fin 8) (f : Voice → Voice) : (s.updVoice v f).response = s.response := rfl

@[simp] theorem State.updVoice_freeDraws (s : State) (v : Fin 8) (f : Voice → Voice) : (s.updVoice v f).freeDraws = s.freeDraws := rfl
@[simp] theorem State.updVoice_noiseMap (s : State) (v : Fin 8) (f : Voice → Voice) : (s.updVoice v f).noiseMap = s.noiseMap := rfl

@[simp] theorem State.mapVoices_g (s : State) (f : Voice → Voice) : (s.mapVoices f).g = s.g := rfl

@[simp] theorem State.mapVoices_voices (s : State) (f : Voice → Voice) : (s.mapVoices f).voices = s.voices.map f := rfl

@[simp] theorem State.mapVoices_dec (s : State) (f : Voice → Voice) : (s.mapVoices f).dec = s.dec := rfl

@[simp] theorem State.mapVoices_inputs (s : State) (f : Voice → Voice) : (s.mapVoices f).inputs = s.inputs := rfl

@[simp] theorem State.mapVoices_response (s : State) (f : Voice → Voice) : (s.mapVoices f).response = s.response := rfl

@[simp] theorem State.mapVoices_freeDraws (s : State) (f : Voice → Voice) : (s.mapVoices f).freeDraws = s.freeDraws := rfl
@[simp] theorem State.mapVoices_noiseMap (s : State) (f : Voice → Voice) : (s.mapVoices f).noiseMap = s.noiseMap := rfl

@[simp] theorem State.respond_g (s : State) (w : Word) : (s.respond w).g = s.g := rfl

@[simp] theorem State.respond_voices (s : State) (w : Word) : (s.respond w).voices = s.voices := rfl

@[simp] theorem State.respond_dec (s : State) (w : Word) : (s.respond w).dec = s.dec := rfl

@[simp] theorem State.respond_inputs (s : State) (w : Word) : (s.respond w).inputs = s.inputs := rfl

@[simp] theorem State.respond_response (s : State) (w : Word) : (s.respond w).response = some w := rfl

@[simp] theorem State.respond_freeDraws (s : State) (w : Word) : (s.respond w).freeDraws = s.freeDraws := rfl
@[simp] theorem State.respond_noiseMap (s : State) (w : Word) : (s.respond w).noiseMap = s.noiseMap := rfl

@[simp] theorem State.accept_g (s : State) (d : Dec) (rest : List Input) : (s.accept d rest).g = s.g := rfl

@[simp] theorem State.accept_voices (s : State) (d : Dec) (rest : List Input) : (s.accept d rest).voices = s.voices := rfl

@[simp] theorem State.accept_dec (s : State) (d : Dec) (rest : List Input) : (s.accept d rest).dec = d := rfl

@[simp] theorem State.accept_inputs (s : State) (d : Dec) (rest : List Input) : (s.accept d rest).inputs = rest := rfl

@[simp] theorem State.accept_response (s : State) (d : Dec) (rest : List Input) : (s.accept d rest).response = none := rfl

@[simp] theorem State.accept_freeDraws (s : State) (d : Dec) (rest : List Input) : (s.accept d rest).freeDraws = s.freeDraws + 1 := rfl
@[simp] theorem State.accept_noiseMap (s : State) (d : Dec) (rest : List Input) : (s.accept d rest).noiseMap = s.noiseMap := rfl

@[simp] theorem State.wait_g (s : State) (d : Dec) : (s.wait d).g = s.g := rfl

@[simp] theorem State.wait_voices (s : State) (d : Dec) : (s.wait d).voices = s.voices := rfl

@[simp] theorem State.wait_dec (s : State) (d : Dec) : (s.wait d).dec = d := rfl

@[simp] theorem State.wait_inputs (s : State) (d : Dec) : (s.wait d).inputs = [] := rfl

@[simp] theorem State.wait_response (s : State) (d : Dec) : (s.wait d).response = s.response := rfl

@[simp] theorem State.wait_freeDraws (s : State) (d : Dec) : (s.wait d).freeDraws = s.freeDraws := rfl
@[simp] theorem State.wait_noiseMap (s : State) (d : Dec) : (s.wait d).noiseMap = s.noiseMap := rfl

@[simp] theorem State.powerOn_g (s : State) (rest : List Input) : (s.powerOn rest).g = Globals.reset := rfl

@[simp] theorem State.powerOn_voices (s : State) (rest : List Input) : (s.powerOn rest).voices = Voices.reset := rfl

@[simp] theorem State.powerOn_dec (s : State) (rest : List Input) : (s.powerOn rest).dec = Dec.reset := rfl

@[simp] theorem State.powerOn_inputs (s : State) (rest : List Input) : (s.powerOn rest).inputs = rest := rfl

@[simp] theorem State.powerOn_response (s : State) (rest : List Input) : (s.powerOn rest).response = none := rfl

@[simp] theorem State.powerOn_freeDraws (s : State) (rest : List Input) : (s.powerOn rest).freeDraws = s.freeDraws := rfl
@[simp] theorem State.powerOn_noiseMap (s : State) (rest : List Input) : (s.powerOn rest).noiseMap = s.noiseMap := rfl

@[simp] theorem State.placePacket_g (s : State) (ws : List Word) : (s.placePacket ws).g = s.g := rfl

@[simp] theorem State.placePacket_voices (s : State) (ws : List Word) : (s.placePacket ws).voices = s.voices := rfl

@[simp] theorem State.placePacket_dec (s : State) (ws : List Word) : (s.placePacket ws).dec = { s.dec with need := 0 } := rfl

@[simp] theorem State.placePacket_inputs (s : State) (ws : List Word) : (s.placePacket ws).inputs = packetInputs 0 ws ++ s.inputs := rfl

@[simp] theorem State.placePacket_response (s : State) (ws : List Word) : (s.placePacket ws).response = s.response := rfl

@[simp] theorem State.placePacket_freeDraws (s : State) (ws : List Word) : (s.placePacket ws).freeDraws = s.freeDraws := rfl
@[simp] theorem State.placePacket_noiseMap (s : State) (ws : List Word) : (s.placePacket ws).noiseMap = s.noiseMap := rfl

/-! ### A voice of the state -/

@[simp] theorem State.updGlobals_voice (s : State) (f : Globals → Globals) (v : Fin 8) :
    (s.updGlobals f).voice v = s.voice v := rfl

@[simp] theorem State.updVoice_voice_self (s : State) (v : Fin 8) (f : Voice → Voice) :
    (s.updVoice v f).voice v = f (s.voice v) := by
  simp [State.voice]

theorem State.updVoice_voice_ne (s : State) {v w : Fin 8} (f : Voice → Voice) (h : w ≠ v) :
    (s.updVoice v f).voice w = s.voice w := by
  simp [State.voice, Voices.get_set_ne _ _ h]

@[simp] theorem State.mapVoices_voice (s : State) (f : Voice → Voice) (v : Fin 8) :
    (s.mapVoices f).voice v = f (s.voice v) := by
  simp [State.voice]

@[simp] theorem State.respond_voice (s : State) (w : Word) (v : Fin 8) : (s.respond w).voice v = s.voice v := rfl

@[simp] theorem State.accept_voice (s : State) (d : Dec) (rest : List Input) (v : Fin 8) :
    (s.accept d rest).voice v = s.voice v := rfl

@[simp] theorem State.wait_voice (s : State) (d : Dec) (v : Fin 8) : (s.wait d).voice v = s.voice v := rfl

@[simp] theorem State.powerOn_voice (s : State) (rest : List Input) (v : Fin 8) :
    (s.powerOn rest).voice v = Voice.reset := by
  simp [State.voice]

@[simp] theorem State.placePacket_voice (s : State) (ws : List Word) (v : Fin 8) :
    (s.placePacket ws).voice v = s.voice v := rfl

/-- Two states are equal if their globals, each voice, and the rest agree. -/
theorem State.ext_voice {s t : State} (hg : s.g = t.g) (hv : ∀ v, s.voice v = t.voice v) (hd : s.dec = t.dec)
    (hi : s.inputs = t.inputs) (hr : s.response = t.response) (hf : s.freeDraws = t.freeDraws)
    (hm : s.noiseMap = t.noiseMap) : s = t := by
  cases s; cases t
  simp only [State.voice] at *
  simp only [*, Voices.ext_get hv]

end Sys2Proof.Machine
end

