-- ==== Sys2Proof/Laws/Ops.lean ====
section
/-! SUPPORT. What the shared operations of Machine/Ops.lean do to the registers, each said once: where a register is
read from, what an update of one unit leaves alone, what a write changes, and what the illegal-command report does. -/

namespace Sys2Proof.Machine

/-! ### Reads and updates of one unit -/

/-- A register reads the same if the globals and the voice it belongs to are the same. -/
theorem readReg_congr {s t : State} (r : Reg) (hg : r.voice? = none → t.g = s.g)
    (hv : ∀ v, r.voice? = some v → t.voice v = s.voice v) : readReg t r = readReg s r := by
  cases r <;> simp [Reg.voice?] at hg hv <;> simp [readReg, *]

theorem readReg_updGlobals (s : State) (f : Globals → Globals) {r : Reg} {v : Fin 8} (h : r.voice? = some v) :
    readReg (s.updGlobals f) r = readReg s r :=
  readReg_congr r (fun h' => by simp [h] at h') (fun _ _ => rfl)

@[simp] theorem readReg_updGlobals_glob (s : State) (f : Globals → Globals) (r : GReg) :
    readReg (s.updGlobals f) (.glob r) = readGlobal (f s.g) r := rfl

theorem readReg_updVoice_ne (s : State) (f : Voice → Voice) {r : Reg} {v : Fin 8} (h : r.voice? ≠ some v) :
    readReg (s.updVoice v f) r = readReg s r :=
  readReg_congr r (fun _ => rfl) fun w hw => State.updVoice_voice_ne s f (fun e => h (by rw [hw, e]))

@[simp] theorem readReg_updVoice_glob (s : State) (v : Fin 8) (f : Voice → Voice) (r : GReg) :
    readReg (s.updVoice v f) (.glob r) = readGlobal s.g r := rfl

@[simp] theorem readReg_mapVoices_glob (s : State) (f : Voice → Voice) (r : GReg) :
    readReg (s.mapVoices f) (.glob r) = readGlobal s.g r := rfl

@[simp] theorem readReg_respond (s : State) (w : Word) (r : Reg) : readReg (s.respond w) r = readReg s r := by
  cases r <;> rfl

@[simp] theorem readReg_accept (s : State) (d : Dec) (rest : List Input) (r : Reg) :
    readReg (s.accept d rest) r = readReg s r := by
  cases r <;> rfl

@[simp] theorem readReg_wait (s : State) (d : Dec) (r : Reg) : readReg (s.wait d) r = readReg s r := by
  cases r <;> rfl

@[simp] theorem readReg_placePacket (s : State) (ws : List Word) (r : Reg) :
    readReg (s.placePacket ws) r = readReg s r := by
  cases r <;> rfl

/-! ### Ports -/

theorem SamePorts.refl (s : State) : SamePorts s s := ⟨rfl, rfl, rfl, rfl, rfl⟩

theorem SamePorts.trans {s t u : State} (h : SamePorts s t) (h' : SamePorts t u) : SamePorts s u :=
  ⟨h'.1.trans h.1, h'.2.1.trans h.2.1, h'.2.2.1.trans h.2.2.1, h'.2.2.2.1.trans h.2.2.2.1,
    h'.2.2.2.2.trans h.2.2.2.2⟩

@[simp] theorem samePorts_updGlobals (s : State) (f : Globals → Globals) : SamePorts s (s.updGlobals f) :=
  ⟨rfl, rfl, rfl, rfl, rfl⟩

@[simp] theorem samePorts_updVoice (s : State) (v : Fin 8) (f : Voice → Voice) : SamePorts s (s.updVoice v f) :=
  ⟨rfl, rfl, rfl, rfl, rfl⟩

@[simp] theorem samePorts_mapVoices (s : State) (f : Voice → Voice) : SamePorts s (s.mapVoices f) :=
  ⟨rfl, rfl, rfl, rfl, rfl⟩

theorem SameRegsExcept.refl (regs : List Reg) (s : State) : SameRegsExcept regs s s := fun _ _ => rfl

theorem SameRegsExcept.trans {l l' : List Reg} {s t u : State} (h : SameRegsExcept l s t)
    (h' : SameRegsExcept l' t u) : SameRegsExcept (l ++ l') s u := by
  intro r hr
  simp only [List.mem_append, not_or] at hr
  rw [h' r hr.2, h r hr.1]

/-! ### Register writes -/

/-- A write leaves the ports alone. -/
theorem samePorts_writeReg (s : State) (w : Word) (r : Reg) : SamePorts s (writeReg s w r) := by
  cases r <;> exact ⟨rfl, rfl, rfl, rfl, rfl⟩

theorem readGlobal_writeGlobal (w : Word) (g : Globals) {r : GReg} (hr : r.readOnly = false)
    (hs : r ≠ .status) (hc : r ≠ .ctrl) : readGlobal (writeGlobal w g r) r = w := by
  cases r <;> first | rfl | exact absurd rfl hs | exact absurd rfl hc | exact absurd hr (by decide)

theorem readVoice_writeVoice (w : Word) (vo : Voice) {r : VReg} (h : r ≠ .voiceOut ∧ r ≠ .cutoffMod) :
    readVoice (writeVoice w vo r) r = w := by
  cases r <;> first | rfl | (simp at h)

theorem readOsc_writeOsc (w : Word) (o : Oscillator) {r : OReg} (h : r ≠ .out) : readOsc (writeOsc w o r) r = w := by
  cases r <;> first | rfl | (simp at h)

theorem readEnv_writeEnv (w : Word) (e : Envelope) {r : EReg} (h : r ≠ .status) : readEnv (writeEnv w e r) r = w := by
  cases r <;> first | rfl | (simp at h)

theorem readFilt_writeFilt (w : Word) (f : Filter) {r : FReg} (h : r ≠ .out) : readFilt (writeFilt w f r) r = w := by
  cases r <;> first | rfl | (simp at h)

/-! ### The illegal-command report -/

@[simp] theorem raiseIllegal_g (cause : BitVec 4) (w : Word) (s : State) :
    (raiseIllegal cause w s).g = recordIllegal cause w s.g := by
  unfold raiseIllegal
  dsimp only
  split <;> rfl

@[simp] theorem raiseIllegal_voices (cause : BitVec 4) (w : Word) (s : State) :
    (raiseIllegal cause w s).voices = s.voices := by
  unfold raiseIllegal
  dsimp only
  split <;> rfl

@[simp] theorem raiseIllegal_voice (cause : BitVec 4) (w : Word) (s : State) (v : Fin 8) :
    (raiseIllegal cause w s).voice v = s.voice v := by
  simp [State.voice]

@[simp] theorem raiseIllegal_dec (cause : BitVec 4) (w : Word) (s : State) : (raiseIllegal cause w s).dec = s.dec := by
  unfold raiseIllegal
  dsimp only
  split <;> rfl

@[simp] theorem raiseIllegal_inputs (cause : BitVec 4) (w : Word) (s : State) :
    (raiseIllegal cause w s).inputs = s.inputs := by
  unfold raiseIllegal
  dsimp only
  split <;> rfl

@[simp] theorem raiseIllegal_freeDraws (cause : BitVec 4) (w : Word) (s : State) :
    (raiseIllegal cause w s).freeDraws = s.freeDraws := by
  unfold raiseIllegal
  dsimp only
  split <;> rfl

@[simp] theorem raiseIllegal_noiseMap (cause : BitVec 4) (w : Word) (s : State) :
    (raiseIllegal cause w s).noiseMap = s.noiseMap := by
  unfold raiseIllegal
  dsimp only
  split <;> rfl

@[simp] theorem raiseIllegal_response (cause : BitVec 4) (w : Word) (s : State) :
    (raiseIllegal cause w s).response = if opField w = 0x02 then some 0 else s.response := by
  unfold raiseIllegal
  dsimp only
  split <;> rfl

/-! ### What a register access can do -/

/-- `REG_WR` reports cause 3 or 4, or writes one register that is not read-only. -/
theorem regWrite_cases (a : Addr) (value : Word) (s : State) :
    (regAt a = none ∧ regWrite a value s = raiseIllegal 3 (encodeCmd (.regWr a value)) s) ∨
    (∃ r, regAt a = some r ∧ r.readOnly = true ∧
      regWrite a value s = raiseIllegal 4 (encodeCmd (.regWr a value)) s) ∨
    (∃ r, regAt a = some r ∧ r.readOnly = false ∧ regWrite a value s = writeReg s value r) := by
  unfold regWrite
  cases h : regAt a with
  | none => exact .inl ⟨rfl, rfl⟩
  | some r =>
    cases hr : r.readOnly with
    | true => exact .inr (.inl ⟨r, rfl, hr, by simp [hr]⟩)
    | false => exact .inr (.inr ⟨r, rfl, hr, by simp [hr]⟩)

/-- `REG_RD` reports cause 3, or responds. -/
theorem regRead_cases (a : Addr) (s : State) :
    (regAt a = none ∧ regRead a s = raiseIllegal 3 (encodeCmd (.regRd a)) s) ∨
    (∃ r, regAt a = some r ∧ regRead a s = s.respond (readReg s r)) := by
  unfold regRead
  cases h : regAt a with
  | none => exact .inl ⟨rfl, rfl⟩
  | some r => exact .inr ⟨r, rfl, rfl⟩

/-! ### What the fetch does with events in two parts -/

/-- Events that complete no packet leave the decoder in some state, and the fetch goes on from there. -/
theorem fetch_append {d d' : Dec} {before : List Input} (h : fetch d before = .idle d') (rest : List Input) :
    fetch d (before ++ rest) = fetch d' rest := by
  induction before generalizing d with
  | nil => simp only [fetch, Fetched.idle.injEq] at h; rw [List.nil_append, h]
  | cons e es ih =>
    cases e with
    | rst => simp [fetch] at h
    | word src w =>
      simp only [List.cons_append, fetch] at h ⊢
      cases ht : takeWord d src w <;> simp only [ht] at h ⊢
      · exact ih h
      all_goals exact absurd h (by simp)

/-! ### What a step can do -/

/-- A step waits, resets, reports an illegal word, runs a command, or refuses interleaved packets. -/
theorem step_cases (s : State) :
    (∃ d, fetch s.dec s.inputs = .idle d ∧ step s = .next (s.wait d)) ∨
    (∃ rest, fetch s.dec s.inputs = .reset rest ∧ step s = .next (s.powerOn rest)) ∨
    (∃ i d rest, fetch s.dec s.inputs = .command i d rest ∧ step s = exec i (s.accept d rest)) ∨
    (∃ r w d rest, fetch s.dec s.inputs = .illegal r w d rest ∧
      step s = .next (raiseIllegal r.cause w (s.accept d rest))) ∨
    (fetch s.dec s.inputs = .interleaved ∧ step s = .refused .interleavedPacket) := by
  unfold step
  cases h : fetch s.dec s.inputs with
  | idle d => exact .inl ⟨d, rfl, rfl⟩
  | reset rest => exact .inr (.inl ⟨rest, rfl, rfl⟩)
  | command i d rest => exact .inr (.inr (.inl ⟨i, d, rest, rfl, rfl⟩))
  | illegal r w d rest => exact .inr (.inr (.inr (.inl ⟨r, w, d, rest, rfl, rfl⟩)))
  | interleaved => exact .inr (.inr (.inr (.inr ⟨rfl, rfl⟩)))

end Sys2Proof.Machine
end

