-- ==== Sys2Proof/Laws/PerInstr.lean ====
section
/-! SUPPORT. Statements made for every command: its packet is well-formed by the opcode map of R136. -/

namespace Sys2Proof.Laws

/-- The high half of a command word whose address field is `a`. -/
theorem cmdWord_and_maskA (op : Nat) (hop : op < 64) (a : Addr) :
    cmdWord op 0 0 a &&& maskA = BitVec.ofNat 32 (op * 2 ^ 26) := by
  have ha := a.isLt
  apply BitVec.eq_of_getLsbD_eq
  intro i hi
  have h : (cmdWord op 0 0 a).getLsbD i = (2 ^ 16 * (op * 2 ^ 10) + a.toNat).testBit i := by
    rw [← BitVec.testBit_toNat, toNat_cmdWord hop]
    congr 1
    simp only [Fin.val_zero]
    omega
  have h' : (BitVec.ofNat 32 (op * 2 ^ 26)).getLsbD i = (2 ^ 16 * (op * 2 ^ 10) + 0).testBit i := by
    rw [← BitVec.testBit_toNat, BitVec.toNat_ofNat, Nat.mod_eq_of_lt (by omega)]
    congr 1
    omega
  rw [BitVec.getLsbD_and, h, h', Nat.testBit_two_pow_mul_add _ (by omega), Nat.testBit_two_pow_mul_add _ (by omega)]
  interval_cases i <;> simp [maskA]

/-- A command word with an address field selects the row with its pattern, once the rows before it are ruled out by
their patterns under the masks. -/
theorem rowOf_regWr (a : Addr) : rowOf (cmdWord 0x01 0 0 a) = some ⟨0x04000000, maskA, 2⟩ := by
  have h : cmdWord 0x01 0 0 a &&& maskA = 0x04000000 := cmdWord_and_maskA 0x01 (by decide) a
  have h0 : cmdWord 0x01 0 0 a &&& maskNone ≠ 0x00000000 := by
    rw [show maskNone = BitVec.allOnes 32 from rfl, BitVec.and_allOnes]
    intro h0
    rw [h0] at h
    revert h
    decide
  have hb := beq_eq_false_iff_ne.mpr h0
  simp only [rowOf, opRows, opRowsLow, List.cons_append, List.find?_cons, hb, h]
  rfl

theorem rowOf_regRd (a : Addr) : rowOf (cmdWord 0x02 0 0 a) = some ⟨0x08000000, maskA, 1⟩ := by
  have h : cmdWord 0x02 0 0 a &&& maskA = 0x08000000 := cmdWord_and_maskA 0x02 (by decide) a
  have h0 : cmdWord 0x02 0 0 a &&& maskNone ≠ 0x00000000 := by
    rw [show maskNone = BitVec.allOnes 32 from rfl, BitVec.and_allOnes]
    intro h0
    rw [h0] at h
    revert h
    decide
  have hb := beq_eq_false_iff_ne.mpr h0
  simp only [rowOf, opRows, opRowsLow, List.cons_append, List.find?_cons, hb, h]
  rfl

namespace PacketWellFormed

/-- The packet a command is encoded as is a legal packet of R136. -/
def Statement (i : Instr) : Prop := Packet.wellFormed (encode i) = true

/-- A packet is legal if its command word selects a row and it has that row's number of words. -/
theorem of_row {i : Instr} {r : OpRow} (h : rowOf (encodeCmd i) = some r)
    (hl : (encodeData i).length + 1 = r.words) : Statement i := by
  simp [Statement, encode, Packet.wellFormed, h, hl]

/-- The rows of the commands whose one field is V. -/
theorem rowOf_v : ∀ v : Fin 8,
    rowOf (cmdWord 0x04 v 0 0) = some ⟨0x10000000, maskV, 1⟩ ∧ rowOf (cmdWord 0x10 v 0 0) = some ⟨0x40000000, maskV, 1⟩ ∧
    rowOf (cmdWord 0x11 v 0 0) = some ⟨0x44000000, maskV, 3⟩ ∧ rowOf (cmdWord 0x12 v 0 0) = some ⟨0x48000000, maskV, 2⟩ ∧
    rowOf (cmdWord 0x14 v 0 0) = some ⟨0x50000000, maskV, 2⟩ ∧ rowOf (cmdWord 0x15 v 0 0) = some ⟨0x54000000, maskV, 1⟩ ∧
    rowOf (cmdWord 0x16 v 0 0) = some ⟨0x58000000, maskV, 1⟩ ∧
    rowOf (cmdWord 0x17 v 0 0) = some ⟨0x5C000000, maskV, 1⟩ := by
  decide

/-- The rows of the commands whose fields are V and U. -/
theorem rowOf_vu : ∀ (v : Fin 8) (u : Fin 2),
    rowOf (cmdWord 0x08 v u 0) = some ⟨0x20000000, maskVU, 1⟩ ∧ rowOf (cmdWord 0x09 v u 0) = some ⟨0x24000000, maskVU, 1⟩ ∧
    rowOf (cmdWord 0x0A v u 0) = some ⟨0x28000000, maskVU, 1⟩ ∧ rowOf (cmdWord 0x0B v u 0) = some ⟨0x2C000000, maskVU, 1⟩ ∧
    rowOf (cmdWord 0x0C v u 0) = some ⟨0x30000000, maskVU, 1⟩ ∧
    rowOf (cmdWord 0x0D v u 0) = some ⟨0x34000000, maskVU, 1⟩ := by
  decide

theorem nop : Statement (.nop) :=
  of_row (r := ⟨0x00000000, maskNone, 1⟩) (by decide) rfl

theorem regWr (a : Addr) (value : Word) : Statement (.regWr a value) :=
  of_row (rowOf_regWr a) rfl

theorem regRd (a : Addr) : Statement (.regRd a) :=
  of_row (rowOf_regRd a) rfl

theorem coreReset : Statement (.coreReset) :=
  of_row (r := ⟨0x0C000000, maskNone, 1⟩) (by decide) rfl

theorem voiceReset (v : Fin 8) : Statement (.voiceReset v) :=
  of_row (rowOf_v v).1 rfl

theorem envReset (v : Fin 8) (u : Fin 2) : Statement (.envReset v u) :=
  of_row (rowOf_vu v u).1 rfl

theorem envAttack (v : Fin 8) (u : Fin 2) : Statement (.envAttack v u) :=
  of_row (rowOf_vu v u).2.1 rfl

theorem envRelease (v : Fin 8) (u : Fin 2) : Statement (.envRelease v u) :=
  of_row (rowOf_vu v u).2.2.1 rfl

theorem envNext (v : Fin 8) (u : Fin 2) : Statement (.envNext v u) :=
  of_row (rowOf_vu v u).2.2.2.1 rfl

theorem oscReset (v : Fin 8) (u : Fin 2) : Statement (.oscReset v u) :=
  of_row (rowOf_vu v u).2.2.2.2.1 rfl

theorem oscNext (v : Fin 8) (u : Fin 2) : Statement (.oscNext v u) :=
  of_row (rowOf_vu v u).2.2.2.2.2 rfl

theorem filtReset (v : Fin 8) : Statement (.filtReset v) :=
  of_row (rowOf_v v).2.1 rfl

theorem filtCoef (v : Fin 8) (cutoff q : Word) : Statement (.filtCoef v cutoff q) :=
  of_row (rowOf_v v).2.2.1 rfl

theorem filtRender (v : Fin 8) (x : Word) : Statement (.filtRender v x) :=
  of_row (rowOf_v v).2.2.2.1 rfl

theorem voiceRender (v : Fin 8) (noise : Word) : Statement (.voiceRender v noise) :=
  of_row (rowOf_v v).2.2.2.2.1 rfl

theorem voiceCtrl (v : Fin 8) : Statement (.voiceCtrl v) :=
  of_row (rowOf_v v).2.2.2.2.2.1 rfl

theorem voicePan (v : Fin 8) : Statement (.voicePan v) :=
  of_row (rowOf_v v).2.2.2.2.2.2.1 rfl

theorem voicePeriod (v : Fin 8) : Statement (.voicePeriod v) :=
  of_row (rowOf_v v).2.2.2.2.2.2.2 rfl

theorem noiseReset : Statement (.noiseReset) :=
  of_row (r := ⟨0x60000000, maskNone, 1⟩) (by decide) rfl

theorem noiseNext : Statement (.noiseNext) :=
  of_row (r := ⟨0x64000000, maskNone, 1⟩) (by decide) rfl

theorem lfoReset : Statement (.lfoReset) :=
  of_row (r := ⟨0x70000000, maskNone, 1⟩) (by decide) rfl

theorem lfoTick : Statement (.lfoTick) :=
  of_row (r := ⟨0x74000000, maskNone, 1⟩) (by decide) rfl

theorem gainReset : Statement (.gainReset) :=
  of_row (r := ⟨0x80000000, maskNone, 1⟩) (by decide) rfl

theorem gainSet (target : Word) : Statement (.gainSet target) :=
  of_row (r := ⟨0x84000000, maskNone, 2⟩) (show rowOf (cmdWord 0x21 0 0 0) = _ by decide) rfl

theorem gainNext : Statement (.gainNext) :=
  of_row (r := ⟨0x88000000, maskNone, 1⟩) (by decide) rfl

theorem blockBegin : Statement (.blockBegin) :=
  of_row (r := ⟨0x90000000, maskNone, 1⟩) (by decide) rfl

theorem sample : Statement (.sample) :=
  of_row (r := ⟨0x94000000, maskNone, 1⟩) (by decide) rfl

theorem blockEnd : Statement (.blockEnd) :=
  of_row (r := ⟨0x98000000, maskNone, 1⟩) (by decide) rfl

end PacketWellFormed

end Sys2Proof.Laws
end

