-- ==== Sys2Proof/Machine/Assembler.lean ====
section
/-! DEFINITION. The assembler's source lines (R150 to R156), from their characters to the lines of HostSide.lean. A text
that is not in one of the forms of R150 is rejected. No step calls it. -/

namespace Sys2Proof.Machine

/-! ### Register names (R45, R47 to R50, R151) -/

/-- The name column of R45. -/
def GReg.name : GReg → String
  | .id => "ID" | .status => "STATUS" | .ctrl => "CTRL" | .sampleRate => "SAMPLE_RATE" | .noiseSeed => "NOISE_SEED"
  | .noiseOut => "NOISE_OUT" | .noiseMix => "NOISE_MIX" | .illWord => "ILL_WORD" | .lfoPhase => "LFO_PHASE"
  | .lfoInc => "LFO_INC" | .lfoStep => "LFO_STEP" | .lfoSine => "LFO_SINE" | .vibratoMod => "VIBRATO_MOD"
  | .pwmMod => "PWM_MOD" | .filterZip => "FILTER_ZIP" | .modWheel => "MOD_WHEEL" | .vibrato => "VIBRATO"
  | .pwmDepth => "PWM_DEPTH" | .filterKeytrack => "FILTER_KEYTRACK" | .filterCtl => "FILTER_CTL"
  | .filterLfoDepth => "FILTER_LFO_DEPTH" | .pressure => "PRESSURE" | .lfoFmod => "LFO_FMOD"
  | .pitchBend => "PITCH_BEND" | .detune => "DETUNE" | .glideRate => "GLIDE_RATE" | .filterQ => "FILTER_Q"
  | .resonanceCtl => "RESONANCE_CTL" | .filterEnvDepth => "FILTER_ENV_DEPTH" | .gainCur => "GAIN_CUR"
  | .gainTarget => "GAIN_TARGET" | .gainStep => "GAIN_STEP" | .gainCount => "GAIN_COUNT" | .gainSteps => "GAIN_STEPS"
  | .gainOut => "GAIN_OUT" | .mixL => "MIX_L" | .mixR => "MIX_R" | .outL => "OUT_L" | .outR => "OUT_R"

/-- The name column of R47. -/
def VReg.name : VReg → String
  | .note => "NOTE" | .saw => "SAW" | .period => "PERIOD" | .target => "TARGET" | .glideRate => "GLIDE_RATE"
  | .panLeft => "PAN_LEFT" | .panRight => "PAN_RIGHT" | .cutoff => "CUTOFF" | .filterMod => "FILTER_MOD"
  | .filterQ => "FILTER_Q" | .pitchBend => "PITCH_BEND" | .filterEnvDepth => "FILTER_ENV_DEPTH"
  | .voiceOut => "VOICE_OUT" | .cutoffMod => "CUTOFF_MOD"

/-- The name column of R48, without `OSC_` (R151). -/
def OReg.name : OReg → String
  | .period => "PERIOD" | .amplitude => "AMPLITUDE" | .modulation => "MODULATION" | .phase => "PHASE"
  | .phaseMax => "PHASE_MAX" | .phaseInc => "PHASE_INC" | .sin0 => "SIN0" | .sin1 => "SIN1" | .dsin => "DSIN"
  | .dcOffset => "DC_OFFSET" | .out => "OUT"

/-- The name column of R49, without `ENV_` (R151). -/
def EReg.name : EReg → String
  | .level => "LEVEL" | .target => "TARGET" | .multiplier => "MULTIPLIER" | .attackMul => "ATTACK_MUL"
  | .decayMul => "DECAY_MUL" | .sustainLevel => "SUSTAIN_LEVEL" | .releaseMul => "RELEASE_MUL" | .status => "STATUS"

/-- The name column of R50. -/
def FReg.name : FReg → String
  | .g => "FILT_G" | .k => "FILT_K" | .a1 => "FILT_A1" | .a2 => "FILT_A2" | .a3 => "FILT_A3" | .ic1eq => "FILT_IC1EQ"
  | .ic2eq => "FILT_IC2EQ" | .out => "FILT_OUT"

/-! ### Characters and numbers -/

/-- The text without the spaces around it. -/
def trim (cs : List Char) : List Char := ((cs.dropWhile Char.isWhitespace).reverse.dropWhile Char.isWhitespace).reverse

/-- The pieces of a text between separators; no piece is lost, so an empty text has one empty piece. -/
def splitAt (sep : Char) : List Char → List (List Char)
  | [] => [[]]
  | c :: cs =>
    match splitAt sep cs with
    | [] => [[c]]
    | p :: ps => if c = sep then [] :: p :: ps else (c :: p) :: ps

/-- The value of a digit in a base up to 16. -/
def digitValue (base : Nat) (c : Char) : Option Nat :=
  let d := if c.isDigit then c.toNat - '0'.toNat
    else if 'a' ≤ c ∧ c ≤ 'f' then c.toNat - 'a'.toNat + 10
    else if 'A' ≤ c ∧ c ≤ 'F' then c.toNat - 'A'.toNat + 10 else 16
  if d < base then some d else none

/-- The number some digits stand for, after digits that stand for `acc`. -/
def digits (base acc : Nat) : List Char → Option Nat
  | [] => some acc
  | c :: cs => (digitValue base c).bind fun d => digits base (acc * base + d) cs

/-- A natural number: at least one digit. -/
def parseNat (base : Nat) (cs : List Char) : Option Nat := if cs.isEmpty then none else digits base 0 cs

/-- An optional sign, and the rest. -/
def takeSign : List Char → Bool × List Char
  | '-' :: cs => (true, cs)
  | '+' :: cs => (false, cs)
  | cs => (false, cs)

/-- `0x` and hex digits (R152). -/
def parseHex : List Char → Option Nat
  | '0' :: 'x' :: cs => parseNat 16 cs
  | _ => none

/-- An optionally signed decimal integer (R152). -/
def parseInt (cs : List Char) : Option Int :=
  let (neg, cs) := takeSign cs
  (parseNat 10 cs).map (signedInt neg ·)

/-- A decimal number with digits, a point if it has one, and digits: `±(mantissa / 10^scale)`. -/
def parseDecimal (cs : List Char) : Option Literal :=
  let (neg, cs) := takeSign cs
  match splitAt '.' cs with
  | [whole] => (parseNat 10 whole).map (.float neg · 0)
  | [whole, frac] =>
    if whole.isEmpty || frac.isEmpty then none else (parseNat 10 (whole ++ frac)).map (.float neg · frac.length)
  | _ => none

/-- A decimal number with the suffix `f` (R152). -/
def parseFloat (cs : List Char) : Option Literal :=
  match cs.reverse with
  | 'f' :: rest => parseDecimal rest.reverse
  | _ => none

/-! ### Operands (R150 to R152) -/

/-- A raw value of 32 bits. -/
def parseRaw (cs : List Char) : Option Literal :=
  (parseHex cs).bind fun n => if n < 2 ^ 32 then some (.raw (BitVec.ofNat 32 n)) else none

/-- A decimal integer that 32 bits hold, as int32 or as u32. -/
def parseInt32 (cs : List Char) : Option Literal :=
  (parseInt cs).bind fun n => if -(2 ^ 31 : Int) ≤ n ∧ n < 2 ^ 32 then some (.int n) else none

/-- `VAL`: a 32-bit value in any of the three ways of R152. -/
def parseVal (cs : List Char) : Option Literal := ((parseRaw cs).or (parseFloat cs)).or (parseInt32 cs)

/-- `F`: a binary32 operand, raw or with the suffix `f` (R152). -/
def parseF (cs : List Char) : Option Literal := (parseRaw cs).or (parseFloat cs)

/-- The operand of `WRF`, "read as a binary32 literal" (R153): without the suffix too. -/
def parseWrfOperand (cs : List Char) : Option Literal := (parseF cs).or (parseDecimal cs)

/-- The operand of `WRI`, "read as an int32" (R154). DESIGN CHOICE (log entry 14): a raw hex value is accepted too, as the
int32 with that pattern, which R154 leaves open; safe. -/
def parseN (cs : List Char) : Option Literal := (parseRaw cs).or (parseInt32 cs)

/-- `vN`: a voice index 0 to 7 after the letter given. -/
def parseVoice (letter : Char) : List Char → Option (Fin 8)
  | [l, c] =>
    if l = letter then
      (digitValue 10 c).bind fun n => if h : n < 8 then some ⟨n, h⟩ else none
    else none
  | _ => none

/-- A unit index 0 or 1 after the letters given: `uN` of an operand, `OSCu` and `ENVu` of a symbol. -/
def parseUnit (letters : String) (cs : List Char) : Option (Fin 2) :=
  if cs = letters.toList ++ ['0'] then some 0 else if cs = letters.toList ++ ['1'] then some 1 else none

/-- The register of a list that has this name. -/
def named {α : Type} (name : α → String) (regs : List α) (cs : List Char) : Option α :=
  regs.find? fun r => (name r).toList == cs

/-- A symbol of R151. -/
def parseSymbol (cs : List Char) : Option Reg :=
  match splitAt '.' cs with
  | [n] => (named GReg.name (runMain ++ runLfo ++ runParam ++ runGain ++ runOut) n).map .glob
  | [vv, n] =>
    (parseVoice 'V' vv).bind fun v =>
      ((named VReg.name runVoice n).map (.voice v)).or ((named FReg.name runFilter n).map (.filt v))
  | [vv, uu, n] =>
    (parseVoice 'V' vv).bind fun v =>
      ((parseUnit "OSC" uu).bind fun u => (named OReg.name runOsc n).map (.osc v u)).or
        ((parseUnit "ENV" uu).bind fun u => (named EReg.name runEnv n).map (.env v u))
  | _ => none

/-- `ADDR`: a 16-bit literal, hex or decimal, or a symbol (R151). DESIGN CHOICE (log entry 14): a decimal address has no
sign, which R151 leaves open; safe. -/
def parseAddr (cs : List Char) : Option AddrOperand :=
  match (parseHex cs).or (parseNat 10 cs) with
  | some n => if n < 2 ^ 16 then some (.literal (BitVec.ofNat 16 n)) else none
  | none => (parseSymbol cs).map .symbol

/-! ### Lines (R150, R153 to R156) -/

/-- The commands without operands. -/
def plainForms : List (String × Instr) := [
  ("NOP", .nop), ("CORE_RESET", .coreReset), ("NOISE_RESET", .noiseReset), ("NOISE_NEXT", .noiseNext),
  ("LFO_RESET", .lfoReset), ("LFO_TICK", .lfoTick), ("GAIN_RESET", .gainReset), ("GAIN_NEXT", .gainNext),
  ("BLOCK_BEGIN", .blockBegin), ("SAMPLE", .sample), ("BLOCK_END", .blockEnd)]

/-- The commands with the operand `vN`. -/
def voiceForms : List (String × (Fin 8 → Instr)) := [
  ("VOICE_RESET", .voiceReset), ("FILT_RESET", .filtReset), ("VOICE_CTRL", .voiceCtrl), ("VOICE_PAN", .voicePan),
  ("VOICE_PERIOD", .voicePeriod)]

/-- The commands with the operands `vN, uM`. -/
def unitForms : List (String × (Fin 8 → Fin 2 → Instr)) := [
  ("ENV_RESET", .envReset), ("ENV_ATTACK", .envAttack), ("ENV_RELEASE", .envRelease), ("ENV_NEXT", .envNext),
  ("OSC_RESET", .oscReset), ("OSC_NEXT", .oscNext)]

/-- The commands with the operands `vN, F`. -/
def inputForms : List (String × (Fin 8 → Word → Instr)) := [
  ("FILT_RENDER", .filtRender), ("VOICE_RENDER", .voiceRender)]

/-- What a table of forms holds under a name. -/
def formOf {α : Type} (table : List (String × α)) (name : List Char) : Option α :=
  (table.find? fun p => p.1.toList == name).map (·.2)

/-- A line without operands. -/
def parseLine0 (name : List Char) : Option Line :=
  if name = "CLR_STATUS".toList then some .clrStatus
  else if name = "RD_STATUS".toList then some .rdStatus
  else (formOf plainForms name).map .command

/-- A line with one operand. DESIGN CHOICE (log entry 14): the count of `SAMPLES n` and `RENDER n` is an unsigned decimal
number, 0 included, and neither hex nor signed; R155 does not say how it is written; safe. -/
def parseLine1 (name x : List Char) : Option Line :=
  if name = "REG_RD".toList then (parseAddr x).map fun a => .command (.regRd a.addr)
  else if name = "GAIN_SET".toList then (parseF x).map fun f => .command (.gainSet f.bits)
  else if name = "SAMPLES".toList then (parseNat 10 x).map .samples
  else if name = "RENDER".toList then (parseNat 10 x).map .render
  else (formOf voiceForms name).bind fun mk => (parseVoice 'v' x).map fun v => .command (mk v)

/-- A line with two operands. -/
def parseLine2 (name x y : List Char) : Option Line :=
  if name = "REG_WR".toList then
    (parseAddr x).bind fun a => (parseVal y).map fun w => .command (.regWr a.addr w.bits)
  else if name = "WRF".toList then (parseAddr x).bind fun a => (parseWrfOperand y).map fun f => .wrf a f
  else if name = "WRI".toList then (parseAddr x).bind fun a => (parseN y).map fun n => .wri a n
  else
    (parseVoice 'v' x).bind fun v =>
      ((formOf unitForms name).bind fun mk => (parseUnit "u" y).map fun u => .command (mk v u)).or
        ((formOf inputForms name).bind fun mk => (parseF y).map fun f => .command (mk v f.bits))

/-- A line with three operands. -/
def parseLine3 (name x y z : List Char) : Option Line :=
  if name = "FILT_COEF".toList then
    (parseVoice 'v' x).bind fun v => (parseF y).bind fun c => (parseF z).map fun q =>
      .command (.filtCoef v c.bits q.bits)
  else none

/-- A source line (R150): a mnemonic in any case, operands between commas, and a comment from `;` on. -/
def parseLine (cs : List Char) : Option Line :=
  let text := trim (cs.takeWhile (· ≠ ';'))
  let name := (text.takeWhile fun c => !c.isWhitespace).map Char.toUpper
  let operands := trim (text.dropWhile fun c => !c.isWhitespace)
  match (if operands.isEmpty then [] else splitAt ',' operands).map trim with
  | [] => parseLine0 name
  | [x] => parseLine1 name x
  | [x, y] => parseLine2 name x y
  | [x, y, z] => parseLine3 name x y z
  | _ => none

/-- The port words of some source lines; none if one of them is no line of R150. -/
def assembleSource (lines : List (List Char)) : Option (List Word) := (lines.mapM parseLine).map assemble

end Sys2Proof.Machine
end

