-- ==== Sys2Proof/Tests/Slice0.lean ====
section
/-! SUPPORT. The model's own tests. The expected values are the spec's: the encodings of spec/30_encoding.md, the worked
examples of the rules, and the vectors of spec/95_test_vectors.md (cited as W1 to W8 and V1 to V10); a value worked out
by hand says so. Then the witnesses: for each statement with hypotheses, a state and operands that meet them. -/

namespace Sys2Proof.Tests
open Sys2Proof.Machine

/-! ### Helpers -/

/-- The word register `r` reads as after an outcome. -/
def after (o : Host.Outcome State Fault Refusal) (r : Reg) : Option Word :=
  match o with
  | .next t => some (readReg t r)
  | _ => none

/-- The response after an outcome. -/
def responseAfter (o : Host.Outcome State Fault Refusal) : Option Word :=
  match o with
  | .next t => t.response
  | _ => none

/-- The power-on state with some registers written. -/
def start (ws : List (Reg × Word)) : State := ws.foldl (fun s p => writeReg s p.2 p.1) State.reset

/-- The power-on state with these words on the port, from host 0. -/
def port (ws : List Word) : State := { State.reset with inputs := packetInputs 0 ws }

/-- The power-on state with changed globals. -/
def withGlobals (f : Globals → Globals) : State := State.reset.updGlobals f

/-! ### Decoding: words written out bit by bit from R131 and R136 -/

/-- A command word by its five fields (R131). -/
def bits (op : BitVec 6) (v : BitVec 3) (u : BitVec 1) (z : BitVec 6) (a : BitVec 16) : Word := op ++ v ++ u ++ z ++ a

theorem test_decode_register_access :
    decode [0b00000000000000000000000000000000] = .ok (.nop, []) ∧
    decode [0b00000100000000000000000000000011, 0x473B8000] = .ok (.regWr 0x0003 0x473B8000, []) ∧
    decode [0b00001000000000001111111111111111] = .ok (.regRd 0xFFFF, []) ∧
    decode [0b00001100000000000000000000000000] = .ok (.coreReset, []) := by decide

theorem test_decode_envelope :
    decode [bits 0b001000 0b111 0b0 0 0] = .ok (.envReset 7 0, []) ∧
    decode [bits 0b001001 0b000 0b1 0 0] = .ok (.envAttack 0 1, []) ∧
    decode [bits 0b001010 0b101 0b0 0 0] = .ok (.envRelease 5 0, []) ∧
    decode [bits 0b001011 0b010 0b1 0 0] = .ok (.envNext 2 1, []) := by decide

theorem test_decode_oscillator_and_filter :
    decode [bits 0b001100 0b010 0b1 0 0] = .ok (.oscReset 2 1, []) ∧
    decode [bits 0b001101 0b110 0b0 0 0] = .ok (.oscNext 6 0, []) ∧
    decode [bits 0b010000 0b100 0b0 0 0] = .ok (.filtReset 4, []) ∧
    decode [bits 0b010001 0b001 0b0 0 0, 0x447A0000, 0x3F34FDF4] = .ok (.filtCoef 1 0x447A0000 0x3F34FDF4, []) ∧
    decode [bits 0b010010 0b011 0b0 0 0, 0x3F800000] = .ok (.filtRender 3 0x3F800000, []) := by decide

theorem test_decode_voice :
    decode [bits 0b000100 0b111 0b0 0 0] = .ok (.voiceReset 7, []) ∧
    decode [bits 0b010100 0b000 0b0 0 0, 0x3E800000] = .ok (.voiceRender 0 0x3E800000, []) ∧
    decode [bits 0b010101 0b001 0b0 0 0] = .ok (.voiceCtrl 1, []) ∧
    decode [bits 0b010110 0b010 0b0 0 0] = .ok (.voicePan 2, []) ∧
    decode [bits 0b010111 0b100 0b0 0 0] = .ok (.voicePeriod 4, []) := by decide

theorem test_decode_noise_and_lfo :
    decode [bits 0b011000 0 0 0 0] = .ok (.noiseReset, []) ∧ decode [bits 0b011001 0 0 0 0] = .ok (.noiseNext, []) ∧
    decode [bits 0b011100 0 0 0 0] = .ok (.lfoReset, []) ∧
    decode [bits 0b011101 0 0 0 0] = .ok (.lfoTick, []) := by decide

theorem test_decode_gain_and_sequencing :
    decode [bits 0b100000 0 0 0 0] = .ok (.gainReset, []) ∧
    decode [bits 0b100001 0 0 0 0, 0x3F000000, 0] = .ok (.gainSet 0x3F000000, [0]) ∧
    decode [bits 0b100010 0 0 0 0] = .ok (.gainNext, []) ∧ decode [bits 0b100100 0 0 0 0] = .ok (.blockBegin, []) ∧
    decode [bits 0b100101 0 0 0 0] = .ok (.sample, []) ∧
    decode [bits 0b100110 0 0 0 0] = .ok (.blockEnd, []) := by decide

/-- Rejected words of R140 and V10, by name. -/
theorem test_decode_rejects :
    decode [0x94800000] = .error .badField ∧ decode [0x0D000000] = .error .badField ∧
    decode [0x14000000] = .error .undefinedOp ∧ decode [0xFFFFFFFF] = .error .undefinedOp ∧
    decode [0x00010000] = .error .badField ∧ decode [0x44800001, 0x447A0000] = .error .badField ∧
    decode [] = .error .truncated ∧ decode [0x44800000, 0x447A0000] = .error .truncated := by decide

/-- The port words of R140 encode back. -/
theorem test_encode :
    encode (.oscNext 2 1) = [0x35400000] ∧ encode (.envAttack 7 0) = [0x27800000] ∧
    encode (.filtCoef 1 0x447A0000 0x3F34FDF4) = [0x44800000, 0x447A0000, 0x3F34FDF4] ∧
    encode (.regWr 0x0003 0x473B8000) = [0x04000003, 0x473B8000] := by decide

/-- R103: over a byte transport a word's least significant byte comes first. -/
theorem test_byte_transport :
    bytesOfWord 0x473B8000 = [0x00, 0x80, 0x3B, 0x47] ∧ wordsOfBytes [0x00, 0x80, 0x3B, 0x47, 0x01] = [0x473B8000] := by
  decide

/-! ### WellFormed: an ill-formed packet for each check -/

theorem wf_refuses_no_words : Packet.wellFormed [] = false := by decide
theorem wf_refuses_undefined_opcode : Packet.wellFormed [bits 0b000101 0 0 0 0] = false := by decide
theorem wf_refuses_reserved_field : Packet.wellFormed [bits 0 0 0 1 0] = false := by decide
theorem wf_refuses_unused_voice : Packet.wellFormed [bits 0b000011 0b010 0 0 0] = false := by decide
theorem wf_refuses_unused_unit : Packet.wellFormed [bits 0b010101 0b001 0b1 0 0] = false := by decide
theorem wf_refuses_unused_address : Packet.wellFormed [bits 0b010001 0b001 0 0 1, 0, 0] = false := by decide
theorem wf_refuses_a_missing_word : Packet.wellFormed [bits 0b010001 0b001 0 0 0, 0] = false := by decide
theorem wf_refuses_an_extra_word : Packet.wellFormed [bits 0b100101 0 0 0 0, 0] = false := by decide
theorem wf_accepts_a_packet : Packet.wellFormed [bits 0b010001 0b001 0 0 0, 0, 0] = true := by decide

/-! ### Arithmetic (R13, R15, R17; worked out by hand) -/

/-- 1 + 2^-24 is a tie and goes to the even 1; 1 + 3 * 2^-24 is one and goes up; the largest number doubled overflows. -/
theorem test_add_rounds_ties_to_even :
    fadd 0 0x3F800000 0x33800000 = 0x3F800000 ∧ fadd 0 0x3F800001 0x33800000 = 0x3F800002 ∧
    fadd 0 0x7F7FFFFF 0x7F7FFFFF = 0x7F800000 ∧ fsub 0 0x3F800000 0x3F800000 = 0x00000000 ∧
    fadd 0 0x80000000 0x80000000 = 0x80000000 := by decide

/-- 1/3 is 0x3EAAAAAB, -1/0 is -inf, and 2 * -3 is -6. -/
theorem test_divide_and_multiply :
    fdiv 0 0x3F800000 0x40400000 = 0x3EAAAAAB ∧ fdiv 0 0xBF800000 0x00000000 = 0xFF800000 ∧
    fmul 0 0x40000000 0xC0400000 = 0xC0C00000 ∧ fmul 0 0x80000000 0x40000000 = 0x80000000 := by decide

/-- floor(-0.5) is -1, floor(2.5) is 2; 16777217 rounds to the even 16777216; -1 is exact. -/
theorem test_floor_and_int_to_float :
    ffloor 0xBF000000 = 0xBF800000 ∧ ffloor 0x40200000 = 0x40000000 ∧ ffloor 0x80000000 = 0x80000000 ∧
    i2f 16777217 = 0x4B800000 ∧ i2f 0xFFFFFFFF = 0xBF800000 ∧ i2f 0x80000000 = 0xCF000000 := by decide

/-- Zeros are equal and a NaN compares false (R15); a NaN passes the clamp. -/
theorem test_comparisons :
    feq 0x00000000 0x80000000 = true ∧ flt 0x80000000 0x00000000 = false ∧ fle 0x7FC00000 0x3F800000 = false ∧
    fgt 0x7FC00000 0x3F800000 = false ∧ fgt 0xBF800000 0xC0000000 = true ∧
    clamp 0x7FC00000 0x41F00000 0x469C4000 = 0x7FC00000 := by decide

/-! ### Register access (V1, R344) -/

/-- `NOP` with Z = 1 is no `NOP` (V10). -/
theorem test_nop : after (exec .nop (start [(.glob .detune, 0x3FA00000)])) (.glob .detune) = some 0x3FA00000 ∧
    after (step (port [0x00010000])) (.glob .illWord) = some 0x00010000 := by decide

theorem test_regWr_reserved_bits :
    after (exec (.regWr 0x0002 0xFFFFFFFF) State.reset) (.glob .ctrl) = some 0x00000001 ∧
    after (exec (.regWr 0x0012 0xFFFFFFFB) State.reset) (.glob .lfoStep) = some 0xFFFFFFFB := by decide

theorem test_regWr_read_only :
    after (exec (.regWr 0x0147 0) State.reset) (.glob .status) = some 0x00000041 ∧
    after (exec (.regWr 0x0147 0) State.reset) (.glob .illWord) = some 0x04000147 ∧
    after (exec (.regWr 0x0000 0x12345678) State.reset) (.glob .id) = some 0x43583131 := by decide

theorem test_regRd_id : responseAfter (exec (.regRd 0x0000) State.reset) = some 0x43583131 := by decide

theorem test_regRd_unmapped :
    responseAfter (exec (.regRd 0x017E) State.reset) = some 0x00000000 ∧
    after (exec (.regRd 0x017E) State.reset) (.glob .status) = some 0x00000031 ∧
    after (exec (.regRd 0x017E) State.reset) (.glob .illWord) = some 0x0800017E := by decide

/-! ### Envelopes (V2) -/

/-- Level 0.0005 is cleared and the rates stay. -/
theorem test_envReset :
    let s := start [(.env 0 0 .level, 0x3A03126F), (.env 0 0 .attackMul, 0x3F000000)]
    after (exec (.envReset 0 0) s) (.env 0 0 .level) = some 0x00000000 ∧
    after (exec (.envReset 0 0) s) (.env 0 0 .attackMul) = some 0x3F000000 := by decide

theorem test_envAttack :
    let o := exec (.envAttack 0 0) (start [(.env 0 0 .attackMul, 0x3F000000)])
    after o (.env 0 0 .level) = some 0x3B03126F ∧ after o (.env 0 0 .target) = some 0x40000000 ∧
    after o (.env 0 0 .multiplier) = some 0x3F000000 ∧ after o (.env 0 0 .status) = some 0x00000003 := by decide

/-- Level 0.8, target 0.5, release 0.9. -/
theorem test_envRelease :
    let o := exec (.envRelease 1 1)
      (start [(.env 1 1 .level, 0x3F4CCCCD), (.env 1 1 .target, 0x3F000000), (.env 1 1 .releaseMul, 0x3F666666)])
    after o (.env 1 1 .level) = some 0x3F4CCCCD ∧ after o (.env 1 1 .target) = some 0x00000000 ∧
    after o (.env 1 1 .multiplier) = some 0x3F666666 := by decide

/-- After the attack above, one step leaves Attack. -/
theorem test_envNext_exits :
    let o := exec (.envNext 0 0) (start [(.env 0 0 .level, 0x3B03126F), (.env 0 0 .target, 0x40000000),
      (.env 0 0 .multiplier, 0x3F000000), (.env 0 0 .decayMul, 0x3F666666), (.env 0 0 .sustainLevel, 0x3E800000)])
    after o (.env 0 0 .level) = some 0x3F8020C4 ∧ after o (.env 0 0 .target) = some 0x3E800000 ∧
    after o (.env 0 0 .multiplier) = some 0x3F666666 := by decide

/-- Level 0x3F800001 plus 2.0 is a tie that rounds to 3.0 and stays in Attack; 0x3F800002 leaves it. -/
theorem test_envNext_tie :
    let s := fun l => start [(.env 0 0 .level, l), (.env 0 0 .target, 0x40000000), (.env 0 0 .multiplier, 0x3F800000)]
    after (exec (.envNext 0 0) (s 0x3F800001)) (.env 0 0 .target) = some 0x40000000 ∧
    after (exec (.envNext 0 0) (s 0x3F800002)) (.env 0 0 .target) = some 0x00000000 := by decide

/-! ### Oscillators (V3) -/

theorem test_oscReset :
    let o := exec (.oscReset 0 1) (start [(.osc 0 1 .phase, 0x41480000), (.osc 0 1 .phaseMax, 0x41EEC2D4)])
    after o (.osc 0 1 .phase) = some 0x00000000 ∧ after o (.osc 0 1 .phaseMax) = some 0x41EEC2D4 := by decide

/-- Call 1 of the cycle with period 20: the restart. -/
theorem test_oscNext_restart :
    let o := exec (.oscNext 0 0) (start [(.osc 0 0 .period, 0x41A00000)])
    after o (.osc 0 0 .phaseMax) = some 0x41EEC2D4 ∧ after o (.osc 0 0 .phaseInc) = some 0x403F0243 ∧
    after o (.osc 0 0 .out) = some 0x3F7286BD := ⟨by decide, by decide, by decide +kernel⟩

/-- Call 12 of that cycle: the mirror. -/
theorem test_oscNext_mirror :
    let o := exec (.oscNext 0 0) (start [(.osc 0 0 .phase, 0x41EEC2D2), (.osc 0 0 .phaseInc, 0x403F0243),
      (.osc 0 0 .phaseMax, 0x41EEC2D4)])
    after o (.osc 0 0 .phase) = some 0x41D6E28E ∧ after o (.osc 0 0 .phaseInc) = some 0xC03F0243 := by decide

/-! ### Filter (V4) -/

theorem test_filtReset :
    let o := exec (.filtReset 3) (start [(.filt 3 .g, 0x3D922480), (.filt 3 .ic2eq, 0x3D973032)])
    after o (.filt 3 .g) = some 0x00000000 ∧ after o (.filt 3 .ic2eq) = some 0x00000000 := by decide

/-- The first row of the table, from its `g` on: `q` is 0.707. -/
theorem test_filtCoef :
    let f := filtCoefOf 0 0x3D922480 0x3F34FDF4 Filter.reset
    f.k = 0x3FB50BF3 ∧ f.a1 = 0x3F6775B4 ∧ f.a2 = 0x3D842221 ∧ f.a3 = 0x3B96DC9B := by decide

/-- With q = 0 (contract HC3 broken) `k` is +inf. -/
theorem test_filtCoef_zero_q :
    after (exec (.filtCoef 1 0x447A0000 0x00000000) State.reset) (.filt 1 .k) = some 0x7F800000 := by decide

theorem test_filtRender :
    let o := exec (.filtRender 2 0x3F800000)
      (start [(.filt 2 .a1, 0x3F6775B4), (.filt 2 .a2, 0x3D842221), (.filt 2 .a3, 0x3B96DC9B)])
    after o (.filt 2 .out) = some 0x3B96DC9B := by decide

/-! ### Voices (V5) -/

theorem test_voiceReset :
    let o := exec (.voiceReset 4)
      (start [(.voice 4 .panLeft, 0x3F800000), (.voice 4 .saw, 0x3F800000), (.voice 4 .cutoff, 0x447A0000)])
    after o (.voice 4 .panLeft) = some 0x3F34FDF4 ∧ after o (.voice 4 .saw) = some 0x00000000 ∧
    after o (.voice 4 .cutoff) = some 0x447A0000 := by decide

/-- By hand: both oscillators run and give 0, so `saw` is 1 * 0.997; the filter, with coefficients 0, gives its second
integrator 0.5; the envelope goes from 1 to 1.5 with multiplier 0.5 and target 2. -/
theorem test_voiceRender :
    let o := exec (.voiceRender 0 0x00000000)
      (start [(.osc 0 0 .phase, 0x3F800000), (.osc 0 0 .phaseInc, 0x3F800000), (.osc 0 0 .phaseMax, 0x41000000),
        (.osc 0 1 .phase, 0x3F800000), (.osc 0 1 .phaseInc, 0x3F800000), (.osc 0 1 .phaseMax, 0x41000000),
        (.voice 0 .saw, 0x3F800000), (.filt 0 .ic2eq, 0x3F000000), (.env 0 0 .level, 0x3F800000),
        (.env 0 0 .target, 0x40000000), (.env 0 0 .multiplier, 0x3F000000)])
    after o (.voice 0 .saw) = some 0x3F7F3B64 ∧ after o (.voice 0 .voiceOut) = some 0x3F400000 := by decide

/-- The portamento step of W8, and envelope 1 of V5. -/
theorem test_voiceCtrl :
    let o := exec (.voiceCtrl 0) (start [(.voice 0 .period, 0x42C80000), (.voice 0 .target, 0x42480000),
      (.voice 0 .glideRate, 0x3F000000), (.env 0 1 .level, 0x3F000000), (.env 0 1 .multiplier, 0x3F000000)])
    after o (.voice 0 .period) = some 0x42960000 ∧ after o (.env 0 1 .level) = some 0x3E800000 := by decide

/-- The cutoffs 10 and 1000000 of V5 are clamped (FEXP(0) = 1 in the vectors). -/
theorem test_voiceCtrl_clamp :
    cutoffOf 0 0x41200000 0x3F800000 0x3F800000 = 0x41F00000 ∧
    cutoffOf 0 0x49742400 0x3F800000 0x3F800000 = 0x469C4000 := by decide

/-- Note -1 is clamped to -1 (W7), and note 72 gives 12/24. -/
theorem test_voicePan : panPosition 0 0xFFFFFFFF = 0xBF800000 ∧ panPosition 0 72 = 0x3F000000 := by decide

theorem test_voicePeriod :
    let o := exec (.voicePeriod 0) (start [(.voice 0 .period, 0x41A00000), (.glob .detune, 0x3F8147AE)])
    after o (.osc 0 0 .period) = some 0x41A00000 ∧ after o (.osc 0 1 .period) = some 0x41A1999A := by decide

/-! ### Noise (V6) -/

theorem test_noiseReset :
    after (exec .noiseReset (start [(.glob .noiseSeed, 0x12345678)])) (.glob .noiseSeed) = some 0x000056CE := by decide

theorem test_noiseNext :
    after (exec .noiseNext State.reset) (.glob .noiseSeed) = some 0xEEF79411 ∧
    after (exec .noiseNext State.reset) (.glob .noiseOut) = some 0x3F5DEF29 := by decide

/-- The smallest output, on a core with either map. -/
theorem test_noiseNext_smallest :
    let s := start [(.glob .noiseSeed, 0x969B02E1)]
    after (exec .noiseNext s) (.glob .noiseSeed) = some 0x00000000 ∧
    after (exec .noiseNext s) (.glob .noiseOut) = some 0xBF7FFFFF ∧
    after (exec .noiseNext { s with noiseMap := .upstream }) (.glob .noiseOut) = some 0xBF800000 := by decide

/-! ### LFO (V7) -/

theorem test_lfoReset :
    let o := exec .lfoReset
      (start [(.glob .lfoPhase, 0x40200000), (.glob .lfoStep, 17), (.glob .filterZip, 0x3E99999A)])
    after o (.glob .lfoPhase) = some 0 ∧ after o (.glob .lfoStep) = some 0 ∧ after o (.glob .filterZip) = some 0 := by
  decide

theorem test_lfoTick_counts :
    let o := exec .lfoTick (start [(.glob .lfoStep, 33), (.glob .lfoInc, 0x3DCCCCCD)])
    after o (.glob .lfoStep) = some 32 ∧ after o (.glob .lfoPhase) = some 0x00000000 := by decide

/-- It fires from 1 and from -5, and the sum PI_F + TWO_PI_F wraps once. -/
theorem test_lfoTick_fires :
    let o := exec .lfoTick (start [(.glob .lfoStep, 1), (.glob .lfoInc, 0x3DCCCCCD)])
    after o (.glob .lfoStep) = some 32 ∧ after o (.glob .lfoPhase) = some 0x3DCCCCCD ∧
    after (exec .lfoTick (start [(.glob .lfoStep, 0xFFFFFFFB), (.glob .lfoInc, 0x40C90FDB),
      (.glob .lfoPhase, 0x40490FDB)])) (.glob .lfoPhase) = some 0x40490FDA := by decide

/-! ### Gain (V8) -/

theorem test_gainReset :
    let o := exec .gainReset (withGlobals ({ · with gainCur := 0x3E800000, gainTarget := 0x3F800000, gainCount := 3 }))
    after o (.glob .gainCur) = some 0x3F800000 ∧ after o (.glob .gainCount) = some 0 := by decide

theorem test_gainSet_ramp :
    let o := exec (.gainSet 0x3F800000) (start [(.glob .gainSteps, 4)])
    after o (.glob .gainStep) = some 0x3E800000 ∧ after o (.glob .gainCount) = some 4 ∧
    after o (.glob .gainCur) = some 0 := by decide

theorem test_gainSet_snap :
    let o := exec (.gainSet 0x3F000000) (start [(.glob .gainSteps, 0xFFFFFFFF)])
    after o (.glob .gainCur) = some 0x3F000000 ∧ after o (.glob .gainCount) = some 0 := by decide

theorem test_gainNext :
    let g := fun c n => withGlobals
      ({ · with gainCur := c, gainTarget := 0x3F800000, gainStep := 0x3EAAAAAB, gainCount := n })
    after (exec .gainNext (g 0 3)) (.glob .gainOut) = some 0x3EAAAAAB ∧
    after (exec .gainNext (g 0x3F2AAAAB 1)) (.glob .gainOut) = some 0x3F800000 := by decide

/-! ### Blocks and samples (V9) -/

/-- P2 and P3: an active voice latches the detuned periods and the block values; an inactive one latches nothing. -/
theorem test_blockBegin :
    let o := exec .blockBegin (start [(.voice 1 .period, 0x41800000), (.env 1 0 .level, 0x3C23D70A),
      (.voice 2 .period, 0x41800000), (.glob .detune, 0x3FA00000), (.glob .filterQ, 0x3F34FDF4)])
    after o (.osc 1 0 .period) = some 0x41800000 ∧ after o (.osc 1 1 .period) = some 0x41A00000 ∧
    after o (.voice 1 .filterQ) = some 0x3F34FDF4 ∧ after o (.voice 1 .glideRate) = some 0x3F800000 ∧
    after o (.osc 2 0 .period) = some 0x00000000 ∧ after o (.voice 2 .glideRate) = some 0x00000000 := by decide

/-- With no voice active SAMPLE mixes +0, and the LFO and the noise still advance. -/
theorem test_sample_silent :
    let o := exec .sample (withGlobals ({ · with gainCur := 0x3F800000, gainTarget := 0x3F800000, lfoStep := 6 }))
    after o (.glob .mixL) = some 0 ∧ after o (.glob .outR) = some 0 ∧ after o (.glob .lfoStep) = some 5 ∧
    after o (.glob .noiseSeed) = some 0xEEF79411 ∧ after o (.glob .gainOut) = some 0x3F800000 := by decide

/-- The mono fold of 0.5 and 0.25. -/
theorem test_sample_mono :
    let g := monoFold 0 0x3F000000 0x3E800000 { Globals.reset with mono := true }
    g.outL = 0x3EC00000 ∧ g.outR = 0 := by decide

theorem test_blockEnd :
    let o := exec .blockEnd (start [(.env 2 0 .level, 0x3A6BEDFA), (.filt 2 .ic1eq, 0x3C23D70A),
      (.env 0 0 .level, 0x3F000000)])
    after o (.env 2 0 .level) = some 0 ∧ after o (.filt 2 .ic1eq) = some 0 ∧
    after o (.env 0 0 .level) = some 0x3F000000 := by decide

/-- R324, and the kept SAMPLE_RATE of R361. -/
theorem test_coreReset :
    let o := exec .coreReset ((start [(.glob .sampleRate, 0x473B8000), (.glob .modWheel, 0x3F000000),
      (.voice 3 .note, 60)]).updGlobals ({ · with gainTarget := 0x3F000000 }))
    after o (.glob .gainCur) = some 0x3F000000 ∧ after o (.glob .sampleRate) = some 0x473B8000 ∧
    after o (.glob .modWheel) = some 0 ∧ after o (.voice 3 .note) = some 0 := by decide

/-! ### The port -/

/-- R344: a FILT_COEF with A = 1 takes no data words, and the next word is a command word again. -/
theorem test_illegal_takes_one_word :
    let o := step (port [0x44800001, 0x447A0000])
    after o (.glob .status) = some 0x00000021 ∧ after o (.glob .illWord) = some 0x44800001 ∧
    (match o with | .next t => decide (t.inputs = packetInputs 0 [0x447A0000]) | _ => false) = true := by decide

/-- P1: the first cause is kept, and CLR_STATUS clears it. -/
theorem test_status_is_sticky :
    let s := withGlobals ({ · with ill := true, cause := 1, illWord := 0x1C000000 })
    after (exec (.regWr 0x0147 0) s) (.glob .status) = some 0x00000011 ∧
    after (exec (.regWr 0x0001 0) s) (.glob .status) = some 0x00000011 ∧
    after (exec (.regWr 0x0001 1) s) (.glob .status) = some 0x00000000 ∧
    after (exec (.regWr 0x0001 1) s) (.glob .illWord) = some 0x00000000 := by decide

/-- The host's numbering: the second word of a packet is bits 63:32; missing operand words are 0. -/
theorem test_table_words :
    decodeTableWord 64 0x473B800004000003 = some (.regWr 0x0003 0x473B8000) ∧
    decodeTableWord 32 0x44800000 = some (.filtCoef 1 0 0) ∧ decodeTableWord 32 0x14000000 = none ∧
    after (step (State.reset.withFetchWord 64 0x473B800004000003)) (.glob .sampleRate) = some 0x473B8000 := by decide

/-! ### Beside the core -/

/-- The literals of R7 and R152: 0.707f, 0.997f, 1e-9, 48000 and -5. -/
theorem test_literals :
    (Literal.float false 707 3).bits = 0x3F34FDF4 ∧ (Literal.float false 997 3).bits = 0x3F7F3B64 ∧
    (Literal.float false 1 9).bits = 0x3089705F ∧ (Literal.int 48000).floatBits = 0x473B8000 ∧
    (Literal.int (-5)).bits = 0xFFFFFFFB := by decide

/-- P1 and P5: pseudo-instructions expand to the words listed there. -/
theorem test_assemble :
    assemble [.wrf (.symbol (.glob .sampleRate)) (.int 48000), .rdStatus, .clrStatus,
      .command (.regRd (Reg.voice 0 .voiceOut).addr), .command (.regRd (Reg.filt 0 .g).addr), .render 1] =
    [0x04000003, 0x473B8000, 0x08000001, 0x04000001, 0x00000001, 0x0800010C, 0x08000110, 0x90000000, 0x94000000,
      0x98000000] := by decide

/-- Source lines of R171's example, P1 and P4, and the words beside them; a comment and a mnemonic in lower case. -/
theorem test_source_lines :
    assembleSource ["REG_RD ID".toList, "wrf SAMPLE_RATE, 48000 ; Hz".toList,
      "REG_WR V0.OSC0.AMPLITUDE, 0.5f".toList] =
      some [0x08000000, 0x04000003, 0x473B8000, 0x04000121, 0x3F000000] ∧
    assembleSource ["FILT_COEF v2, 1000f, 0.707f".toList, "REG_RD V2.ENV0.STATUS".toList] =
      some [0x45000000, 0x447A0000, 0x3F34FDF4, 0x08000247] := by decide

/-- No such voice, an operand SAMPLE does not take, no such register (R150, R151). -/
theorem test_source_line_rejects :
    parseLine "OSC_NEXT v8, u1".toList = none ∧ parseLine "SAMPLE v1".toList = none ∧
    parseLine "REG_RD V0.FOO".toList = none := by decide

/-- R255: `PERIOD` (0x0102 for voice 0) is written right after `TARGET`, or left for glide. -/
theorem test_noteStart_period :
    let e : EnvParams := { attackMul := 0, decayMul := 0, sustainLevel := 0, releaseMul := 0 }
    let note := fun p => noteStart 0 60 0x41A00000 p 0x3F800000 0x3F800000 0x447A0000 e e
    (note (some 0x42C80000)).take 3 =
      [.regWr 0x0100 60, .regWr 0x0103 0x41A00000, .regWr 0x0102 0x42C80000] ∧
    (note none).take 3 = [.regWr 0x0100 60, .regWr 0x0103 0x41A00000, .regWr 0x0121 0x3F800000] := by decide

/-- By hand: the largest finite number is under 3.5e38, so that literal is an infinity; hex is accepted by WRI. -/
theorem test_literal_choices :
    (Literal.float false (35 * 10 ^ 37) 0).bits = 0x7F800000 ∧
    parseN "0xFFFFFFFF".toList = some (.raw 0xFFFFFFFF) ∧ parseN "4294967296".toList = none := by decide

/-- W4. -/
theorem test_scrub :
    scrub [0x3F000000, 0x7FC00000, 0x3E800000] = [0, 0, 0] ∧ scrub [0x3F000000, 0x3FC00000, 0xC0400000] = [0, 0, 0] ∧
    scrub [0x40000000, 0xC0000000, 0x3F800000] = [0x3F800000, 0xBF800000, 0x3F800000] := by decide

/-! ### Witnesses: encoding -/

/-- The opcodes of R136. -/
def opcodes : List Nat := [0x00, 0x01, 0x02, 0x03, 0x04, 0x08, 0x09, 0x0A, 0x0B, 0x0C, 0x0D, 0x10, 0x11, 0x12, 0x14,
  0x15, 0x16, 0x17, 0x18, 0x19, 0x1C, 0x1D, 0x20, 0x21, 0x22, 0x24, 0x25, 0x26]

/-- `CommandWord`: each opcode has words with every field 0, and words with a reserved bit set. -/
theorem witness_CommandWord : ∀ op ∈ opcodes,
    (BitVec.ofNat 32 (op * 2 ^ 26)).toNat / 2 ^ 26 = op ∧ zField (BitVec.ofNat 32 (op * 2 ^ 26)) = 0 ∧
    (BitVec.ofNat 32 (op * 2 ^ 26 + 2 ^ 16)).toNat / 2 ^ 26 = op ∧
    zField (BitVec.ofNat 32 (op * 2 ^ 26 + 2 ^ 16)) ≠ 0 := by decide

/-- `CommandWord`, at the largest fields: V = 7, U = 1, A = 0xFFFF. -/
theorem witness_CommandWord_fields :
    zField 0x27C00000 = 0 ∧ vField 0x27C00000 = 7 ∧ uField 0x27C00000 = 1 ∧ aField 0x27C00000 = 0 ∧
    zField 0x0800FFFF = 0 ∧ vField 0x0800FFFF = 0 ∧ uField 0x0800FFFF = 0 ∧ aField 0x0800FFFF = 0xFFFF := by decide

theorem witness_EncodeOfDecodeIsThePacket :
    decode [0x44800000, 0x447A0000, 0x3F34FDF4, 0x00000005] =
      .ok (.filtCoef 1 0x447A0000 0x3F34FDF4, [0x00000005]) := by decide

/-- The first and the last opcode of each run that R136 leaves out, and the legal ones beside them. -/
theorem witness_IllegalWordsAreRejectedByCause :
    (∀ op ∈ [0x05, 0x07, 0x0E, 0x0F, 0x13, 0x1A, 0x1B, 0x1E, 0x1F, 0x23, 0x27, 0x3F],
      decode [BitVec.ofNat 32 (op * 2 ^ 26), 0, 0] = .error .undefinedOp) ∧
    (∀ op ∈ opcodes, decode [BitVec.ofNat 32 (op * 2 ^ 26 + 2 ^ 21), 0, 0] = .error .badField) := by decide

/-! ### Witnesses: the port -/

theorem witness_StepRunsTheDecodedCommand :
    (port [0x44800000, 0x447A0000, 0x3F34FDF4]).dec.need = 0 ∧
    (port [0x44800000, 0x447A0000, 0x3F34FDF4]).inputs =
      packetInputs 0 (encode (.filtCoef 1 0x447A0000 0x3F34FDF4)) ++ [] := by decide

theorem witness_SplitPacketRunsAsWhole :
    State.reset.dec.need = 0 ∧
    encode (.filtCoef 1 0x447A0000 0x3F34FDF4) = [0x44800000] ++ [0x447A0000, 0x3F34FDF4] ∧
    encode (.filtCoef 1 0x447A0000 0x3F34FDF4) = [0x44800000, 0x447A0000] ++ [0x3F34FDF4] ∧
    encode .nop = [] ++ [0x00000000] := by decide

theorem witness_CoreWithoutInputKeepsItsState : State.reset.inputs = [] := rfl

/-- Both causes, with ILL 0 and 1, and an illegal word that is a REG_RD. -/
theorem witness_IllegalCommandOnlyReports :
    State.reset.dec.need = 0 ∧ decodeCmd 0x14000000 0 0 = .error .undefinedOp ∧
    decodeCmd 0x94800000 0 0 = .error .badField ∧ decodeCmd 0x08010000 0 0 = .error .badField ∧
    (readReg State.reset (.glob .status)).getLsbD 0 = false ∧
    (readReg (withGlobals ({ · with ill := true, cause := 4 })) (.glob .status)).getLsbD 0 = true := by decide

/-- A REG_RD and a packet with data words, from host 0, and an illegal word that is a REG_RD. -/
theorem witness_OnlyRegRdResponds :
    (port [0x08000000]).dec.need = 0 ∧ (port [0x08000000]).inputs = packetInputs 0 (encode (.regRd 0x0000)) ++ [] ∧
    (port [0x04000002, 1]).inputs = packetInputs 0 (encode (.regWr 0x0002 1)) ++ [] ∧
    decodeCmd 0x08010000 0 0 = .error .badField ∧
    responseAfter (step (port [0x08000000])) = some 0x43583131 ∧
    responseAfter (step (port [0x08010000])) = some 0x00000000 ∧
    responseAfter (step (port [0x00000000])) = none ∧
    after (step (port [0x00000000])) (.glob .status) = some 0 := by decide

/-- Waiting words of one host, and a packet of that host begun. -/
theorem witness_OneHostRunsForever :
    OneHost 0 (port [0x44800001, 0x08000000]) ∧
    OneHost 3 { State.reset with dec := { Dec.reset with need := 1, cmd := 0x04000002, src := 3 } } := by
  refine ⟨⟨?_, by decide⟩, fun _ _ h => by simp [State.reset] at h, fun _ => rfl⟩
  intro src w h
  simp [port, packetInputs] at h
  omega

/-- The packet begun before the step; begun within it; and its second data word the foreign one. -/
theorem witness_InterleavedPacketIsRefused :
    let begun : Dec := { Dec.reset with need := 1, cmd := 0x04000002, src := 0 }
    fetch begun [] = .idle begun ∧ begun.need ≠ 0 ∧ (1 : Nat) ≠ begun.src ∧
    fetch Dec.reset (packetInputs 0 [0x04000002]) = .idle begun ∧
    fetch Dec.reset (packetInputs 3 [0x44800000, 0x447A0000]) =
      .idle { need := 1, cmd := 0x44800000, data0 := 0x447A0000, data1 := 0, src := 3 } := by decide

/-- A REG_WR of host 0 with a data word of host 1, both waiting, is refused; of one host it runs. -/
theorem test_interleaved_packet :
    (match step { State.reset with inputs := [.word 0 0x04000002, .word 1 1] } with
      | .refused r => decide (r = .interleavedPacket) | _ => false) = true ∧
    after (step { State.reset with inputs := [.word 1 0x04000002, .word 1 1] }) (.glob .ctrl) = some 1 := by decide

/-- RST with nothing before it, and inside a packet of three words. -/
theorem witness_RstRestoresPowerOnState :
    fetch State.reset.dec [] = .idle State.reset.dec ∧
    fetch State.reset.dec (packetInputs 0 [0x44800000, 0x447A0000]) =
      .idle { need := 1, cmd := 0x44800000, data0 := 0x447A0000, data1 := 0, src := 0 } := by decide

/-! ### Witnesses: registers -/

/-- The addresses on both sides of the ends of the mapped runs: none of the first list is mapped, all of the second. -/
theorem witness_UnmappedAddressesAreTheListedOnes :
    ([0x0008, 0x000F, 0x001F, 0x0026, 0x002F, 0x0036, 0x0037, 0x003C, 0x00FF].map regAt).all Option.isNone = true ∧
    ([0x010E, 0x010F, 0x0118, 0x011F, 0x012B, 0x013B, 0x0148, 0x014F, 0x0158].map regAt).all Option.isNone = true ∧
    ([0x04FF, 0x0500, 0xFFFF].map regAt).all Option.isNone = true ∧
    ([0x0007, 0x0010, 0x001E, 0x0020, 0x0025, 0x0030, 0x0035, 0x0038, 0x003B].map regAt).all Option.isSome = true ∧
    ([0x0100, 0x010D, 0x0110, 0x0117, 0x0120, 0x012A, 0x0130, 0x0140].map regAt).all Option.isSome = true ∧
    ([0x0147, 0x0150, 0x0157, 0x0180, 0x04D7].map regAt).all Option.isSome = true := by decide

/-- One address for each clause, and both values of bit 0. -/
theorem witness_RegWrWritesOneRegister :
    regAt 0x0008 = none ∧ regAt 0xFFFF = none ∧ regAt 0x0000 = some (.glob .id) ∧ (Reg.glob .id).readOnly = true ∧
    regAt 0x04D7 = some (.env 7 1 .status) ∧ (Reg.env 7 1 .status).readOnly = true ∧
    regAt 0x0001 = some (.glob .status) ∧ (0xFFFFFFFF#32).getLsbD 0 = true ∧ (0xFFFFFFFE#32).getLsbD 0 = false ∧
    regAt 0x0002 = some (.glob .ctrl) ∧ regAt 0x0140 = some (.env 0 0 .level) ∧
    (Reg.env 0 0 .level).readOnly = false ∧ Reg.env 0 0 .level ≠ .glob .status := by decide

theorem witness_RegRdOnlyResponds :
    regAt 0x0004 = some (.glob .noiseSeed) ∧ regAt 0x0500 = none ∧
    (readReg State.reset (.glob .status)).getLsbD 0 = false ∧
    (readReg (withGlobals ({ · with ill := true, cause := 1 })) (.glob .status)).getLsbD 0 = true := by decide

/-! ### Witnesses: envelopes -/

/-- A level of -0 counts as not negative; a NaN level. -/
theorem witness_EnvAttackEntersAttack :
    fge (readReg (start [(.env 0 0 .level, 0x80000000)]) (.env 0 0 .level)) 0x00000000 = true ∧
    isNaN (readReg (start [(.env 7 1 .level, 0x7FC00001)]) (.env 7 1 .level)) = true := by decide

/-- Both ends of the multiplier's range, and a level of -0. -/
theorem witness_EnvNextKeepsLevelNonNegative :
    let e : Word → Envelope := fun m => { Envelope.reset with level := 0x80000000, target := 0x40000000, multiplier := m }
    isFinite (e 0).level = true ∧ isFinite (e 0).target = true ∧ fge (e 0).level Config.zeroF = true ∧
    fge (e 0).target Config.zeroF = true ∧ fge (e 0).sustainLevel Config.zeroF = true ∧
    between Config.zeroF (e 0x00000000).multiplier Config.oneF = true ∧
    between Config.zeroF (e 0x3F800000).multiplier Config.oneF = true := by decide

/-- The largest multiplier below 1, with the smallest and the largest level. -/
theorem witness_ReleaseEndsInSilence :
    let e : Word → Envelope := fun l => { Envelope.reset with level := l, multiplier := 0x3F7FFFFF }
    (e 0).target = Config.zeroF ∧ flt Config.zeroF (e 0).multiplier = true ∧ flt (e 0).multiplier Config.oneF = true ∧
    flt 0x00800000 (e 0x00800001).level = true ∧ fle (e 0x00800001).level Config.attackExit = true ∧
    flt 0x00800000 (e 0x40400000).level = true ∧ fle (e 0x40400000).level Config.attackExit = true := by decide

theorem witness_OnlyEnvAttackEntersAttack :
    let s := start [(.env 0 0 .sustainLevel, 0x3FFFFFFF)]
    exec .nop s = .next s ∧ Instr.nop ≠ .envAttack 0 0 ∧
    (∀ value, Instr.nop ≠ .regWr (Reg.env 0 0 .target).addr value) ∧ inAttackBit s 0 0 = false ∧
    fge (readReg s (.env 0 0 .sustainLevel)) Config.attackTarget = false :=
  ⟨rfl, by decide, nofun, by decide, by decide⟩

/-! ### Witnesses: oscillators -/

/-- A phase of exactly pi/4 restarts, the next one runs; a phase of exactly `phase_max` does not mirror, the next one
does (0 is added to each). -/
theorem witness_OscNextProducesOneSample :
    let phase := fun (p : Word) => fadd 0 p 0x00000000
    fle (phase 0x3F490FDB) 0x3F490FDB = true ∧ fle (phase 0x3F490FDC) 0x3F490FDB = false ∧
    fgt (phase 0x41EEC2D4) 0x41EEC2D4 = false ∧ fgt (phase 0x41EEC2D5) 0x41EEC2D4 = true ∧
    fle 0x7FC00000 0x3F490FDB = false := by decide

theorem witness_OscResetHidesPhaseMax :
    let s' := writeReg State.reset 0x41EEC2D4 (.osc 3 1 .phaseMax)
    SameRegsExcept [.osc 3 1 .phaseMax] State.reset s' ∧ s'.freeDraws = State.reset.freeDraws ∧
      readReg s' (.osc 3 1 .phaseMax) ≠ readReg State.reset (.osc 3 1 .phaseMax) := by
  refine ⟨fun r hr => ?_, rfl, by decide⟩
  by_cases hv : r.voice? = some 3
  · cases r with
    | osc v u r =>
      obtain rfl : v = 3 := by simpa [Reg.voice?] using hv
      fin_cases u <;> cases r <;> first | rfl | simp at hr
    | _ => simp_all [Reg.voice?] <;> rfl
  · exact readReg_updVoice_ne _ _ hv

/-! ### Witnesses: voices -/

theorem witness_VoiceCommandsTouchTheirVoiceOnly :
    (Instr.envReset 7 1).voice? = some 7 ∧ after (exec (.envReset 7 1) State.reset) (.env 7 1 .level) = some 0 ∧
    (Reg.env 6 1 .level).voice? ≠ some 7 := by decide

/-- Two states that differ in voice 1 agree in voice 0 and the globals. -/
theorem witness_VoicesDoNotReadEachOther :
    let s' := writeReg State.reset 0x3F800000 (.env 1 0 .level)
    (Instr.voicePan 0).voice? = some 0 ∧
    (∀ r : Reg, r.voice? = some 0 ∨ r.voice? = none → readReg s' r = readReg State.reset r) ∧
    s'.freeDraws = State.reset.freeDraws ∧ readReg s' (.env 1 0 .level) ≠ readReg State.reset (.env 1 0 .level) :=
  ⟨rfl, fun _ h => readReg_updVoice_ne _ _ (by rcases h with h | h <;> simp [h]), rfl, by decide⟩

/-! ### Witnesses: LFO, gain, blocks -/

/-- LFO_STEP 2 does not fire and 1 does; -2^31 wraps to the largest count (R17) and does not. -/
theorem witness_LfoTickCountsAndFires :
    0 < ((2 : Word) - 1).toInt ∧ ((1 : Word) - 1).toInt ≤ 0 ∧ ((0 : Word) - 1).toInt ≤ 0 ∧
    0 < ((0x80000000 : Word) - 1).toInt ∧ activeBit State.reset 0 = false := by decide

/-- The target it has (with another zero's sign), a new one with no ramp length, and one with the shortest ramp. -/
theorem witness_GainSetStartsARamp :
    feq 0x80000000 (readReg State.reset (.glob .gainTarget)) = true ∧
    feq 0x3F800000 (readReg State.reset (.glob .gainTarget)) = false ∧
    (readReg State.reset (.glob .gainSteps)).toInt ≤ 0 ∧
    0 < (readReg (start [(.glob .gainSteps, 1)]) (.glob .gainSteps)).toInt ∧
    feq 0x7FC00000 (readReg State.reset (.glob .gainTarget)) = false := by decide

/-- GAIN_COUNT 0, 1 (the last step) and 2. -/
theorem witness_GainNextStepsTheRamp :
    (readReg State.reset (.glob .gainCount)).toInt ≤ 0 ∧
    0 < (readReg (withGlobals ({ · with gainCount := 1 })) (.glob .gainCount)).toInt ∧
    ¬ 0 < ((1 : Word) - 1).toInt ∧ 0 < ((2 : Word) - 1).toInt := by decide

/-- A ramp of four steps, with 1, 3, 4 and 5 calls. -/
theorem witness_GainRampLandsOnTarget :
    let s := start [(.glob .gainSteps, 4)]
    let steps := (readReg s (.glob .gainSteps)).toInt
    feq 0x3F800000 (readReg s (.glob .gainTarget)) = false ∧ 0 < steps ∧ ((1 : Nat) : Int) < steps ∧
    ((3 : Nat) : Int) < steps ∧ steps ≤ (4 : Nat) ∧ steps ≤ (5 : Nat) := by decide

/-- A level of exactly SILENCE is inactive and the next number is active (W2); a NaN is inactive. -/
theorem witness_BlockBeginLatchesActiveVoices :
    activeBit (start [(.env 7 0 .level, 0x3A83126F)]) 7 = false ∧
    activeBit (start [(.env 7 0 .level, 0x3A831270)]) 7 = true := by decide

theorem witness_BlockEndFreesSilentVoices :
    activeBit (start [(.env 0 0 .level, 0x7FC00000)]) 0 = false ∧
    activeBit (start [(.env 0 0 .level, 0x3F000000)]) 0 = true := by decide

/-! ### Witnesses: invariants -/

/-- The invariant holds in a state with a packet waiting, and the step runs it. -/
theorem witness_StepKeepsTheInvariant :
    Inv (port [0x84000000, 0x3F800000]) ∧
    after (step (port [0x84000000, 0x3F800000])) (.glob .gainTarget) = some 0x3F800000 := by
  refine ⟨⟨?_, ?_, fun h => absurd rfl h⟩, by decide⟩
  · exact ⟨by decide, by decide, by decide⟩
  · exact ⟨by decide, by decide⟩

/-! ### Witnesses: arithmetic -/

/-- 1 - 1 is an exact zero, 0 a zero divisor, and 1/3 a quotient that is not exact. -/
theorem witness_FiniteArithmeticRoundsOnce :
    isFinite 0x3F800000 = true ∧ isFinite 0xBF800000 = true ∧ isFinite 0x00000000 = true ∧
    isFinite 0x7F7FFFFF = true ∧ operandValue 0x3F800000 = 1 ∧ operandValue 0xBF800000 = -1 ∧
    operandValue 0x00000000 = 0 ∧ operandValue 0x80000000 = 0 := by
  have value (a : Word) (n : Bool) (e f : Nat) (h : signBit a = n ∧ expField a = e ∧ fracField a = f)
      (hs : isSubnormal a = false) : operandValue a = (if n then -1 else 1) *
        ((if e = 0 then f else f + 2 ^ 23 : ℕ) : ℚ) * (2 : ℚ) ^ ((max e 1 : ℤ) - 150) := by
    rw [operandValue, flushSubnormal_of_not hs, valueOf, h.1, h.2.1, h.2.2]
  refine ⟨by decide, by decide, by decide, by decide, ?_, ?_, ?_, ?_⟩
  · rw [value _ false 127 0 (by decide) (by decide)]; norm_num
  · rw [value _ true 127 0 (by decide) (by decide)]; norm_num
  · rw [value _ false 0 0 (by decide) (by decide)]; norm_num
  · rw [value _ true 0 0 (by decide) (by decide)]; norm_num

theorem witness_SpecialOperandsFollowIeee :
    isNaN 0x7FC00000 = true ∧ isNaN 0xFF800001 = true ∧ isInf 0x7F800000 = true ∧ isInf 0xFF800000 = true ∧
    signBit 0x7F800000 = false ∧ signBit 0xFF800000 = true ∧ isFinite 0x3F800000 = true ∧
    isFinite 0x80000000 = true ∧ operandValue 0x3F800000 ≠ 0 ∧ operandValue 0x80000000 = 0 := by
  have h := witness_FiniteArithmeticRoundsOnce
  refine ⟨by decide, by decide, by decide, by decide, by decide, by decide, by decide, by decide, ?_, ?_⟩
  · rw [h.2.2.2.2.1]; norm_num
  · exact h.2.2.2.2.2.2.2

/-- A result that is a number, and one that is not. -/
theorem witness_ResultsFollowDenormalMode :
    isNaN (fadd 0 0x3F800000 0x3F800000) = false ∧ isNaN (fdiv 0 0x00000000 0x00000000) = true :=
  ⟨by decide, isNaN_quietNaN 0 .div 0 0⟩

theorem witness_ComparisonsFloorAndClamp :
    isNaN 0x7F800001 = true ∧ isNaN 0x7F800000 = false ∧ isNaN 0x80000000 = false ∧ isFinite 0xFF800000 = false ∧
    isFinite 0xBF000000 = true ∧ operandValue 0x80000000 = 0 :=
  ⟨by decide, by decide, by decide, by decide, by decide, witness_SpecialOperandsFollowIeee.2.2.2.2.2.2.2.2.2⟩

/-- 2^24 and -2^24 are within the exact range, 2^24 + 1 is not. -/
theorem witness_IntToFloatRoundsToNearest :
    (16777216#32).toInt.natAbs ≤ 2 ^ 24 ∧ (0xFF000000#32).toInt.natAbs ≤ 2 ^ 24 ∧
    ¬ (16777217#32).toInt.natAbs ≤ 2 ^ 24 := by decide

end Sys2Proof.Tests
end

section
/-! SUPPORT. A pattern as its sign and the magnitude of its low 31 bits (R12, R103): the kinds of patterns by the magnitude,
and the whole number of units 2^-149 that a magnitude stands for. -/

namespace Sys2Proof.Machine

/-- The low 31 bits of a pattern. -/
def magnitude (a : Word) : Nat := a.toNat % 2 ^ 31

theorem magnitude_lt (a : Word) : magnitude a < 2 ^ 31 := Nat.mod_lt _ (by decide)

theorem magnitude_signed {m : Nat} (neg : Bool) (h : m < 2 ^ 31) : magnitude (signed neg m) = m := by
  rw [magnitude, toNat_signed neg h]
  split <;> omega

theorem toNat_eq_magnitude_add (a : Word) : a.toNat = magnitude a + if signBit a then 2 ^ 31 else 0 := by
  have ha := a.isLt
  simp only [magnitude, signBit, BitVec.msb_eq_decide, decide_eq_true_eq]
  split <;> omega

@[simp] theorem signed_signBit_magnitude (a : Word) : signed (signBit a) (magnitude a) = a := by
  apply BitVec.eq_of_toNat_eq
  rw [toNat_signed _ (magnitude_lt a), ← toNat_eq_magnitude_add]

theorem expField_eq (a : Word) : expField a = magnitude a / 2 ^ 23 := by
  rw [expField, magnitude]
  omega

theorem fracField_eq (a : Word) : fracField a = magnitude a % 2 ^ 23 := by
  rw [fracField, magnitude]
  omega

/-! ### The kinds of patterns -/

theorem isNaN_iff (a : Word) : isNaN a = true ↔ 0x7F800000 < magnitude a := by
  have h := magnitude_lt a
  simp only [isNaN, expField_eq, fracField_eq, Bool.and_eq_true, beq_iff_eq, bne_iff_ne]
  omega

theorem isInf_iff (a : Word) : isInf a = true ↔ magnitude a = 0x7F800000 := by
  have h := magnitude_lt a
  simp only [isInf, expField_eq, fracField_eq, Bool.and_eq_true, beq_iff_eq]
  omega

theorem isFinite_iff (a : Word) : isFinite a = true ↔ magnitude a < 0x7F800000 := by
  have h := magnitude_lt a
  simp only [isFinite, expField_eq, bne_iff_ne]
  omega

theorem isSubnormal_iff (a : Word) : isSubnormal a = true ↔ 0 < magnitude a ∧ magnitude a < 2 ^ 23 := by
  have h := magnitude_lt a
  simp only [isSubnormal, expField_eq, fracField_eq, Bool.and_eq_true, beq_iff_eq, bne_iff_ne]
  omega

theorem isNaN_eq_false_iff (a : Word) : isNaN a = false ↔ magnitude a ≤ 0x7F800000 := by
  rw [← Bool.not_eq_true, isNaN_iff, not_lt]

theorem isSubnormal_eq_false_iff (a : Word) : isSubnormal a = false ↔ magnitude a = 0 ∨ 2 ^ 23 ≤ magnitude a := by
  rw [← Bool.not_eq_true, isSubnormal_iff]
  omega

theorem isSubnormal_of_isNaN {a : Word} (h : isNaN a = true) : isSubnormal a = false := by
  rw [isNaN_iff] at h
  rw [isSubnormal_eq_false_iff]
  omega

theorem isSubnormal_of_isInf {a : Word} (h : isInf a = true) : isSubnormal a = false := by
  rw [isInf_iff] at h
  rw [isSubnormal_eq_false_iff]
  omega

theorem isNaN_or_isInf_of_not_finite {a : Word} (h : isFinite a = false) : isNaN a = true ∨ isInf a = true := by
  rw [← Bool.not_eq_true, isFinite_iff] at h
  rw [isNaN_iff, isInf_iff]
  omega

theorem flushSubnormal_of_not_finite {a : Word} (h : isFinite a = false) : flushSubnormal a = a :=
  flushSubnormal_of_not ((isNaN_or_isInf_of_not_finite h).elim isSubnormal_of_isNaN isSubnormal_of_isInf)

theorem infOf_signBit {a : Word} (h : isInf a = true) : infOf (signBit a) = a := by
  rw [infOf, ← (isInf_iff a).mp h, signed_signBit_magnitude]

theorem fneg_infOf (neg : Bool) : fneg (infOf neg) = infOf (!neg) := by
  cases neg <;> decide

/-- In either mode the flush keeps the sign, and it changes the magnitude of a subnormal at most, to 0. -/
theorem signBit_flushSubnormal (a : Word) : signBit (flushSubnormal a) = signBit a := by
  rcases flushSubnormal_cases a with e | ⟨-, e⟩
  · rw [e]
  · rw [e, zeroOf, signBit_signed _ (by decide)]

theorem magnitude_flushSubnormal (a : Word) :
    magnitude (flushSubnormal a) = magnitude a ∨
      magnitude (flushSubnormal a) = 0 ∧ 0 < magnitude a ∧ magnitude a < 2 ^ 23 := by
  rcases flushSubnormal_cases a with e | ⟨h, e⟩
  · exact .inl (by rw [e])
  · exact .inr ⟨by rw [e, zeroOf, magnitude_signed _ (by decide)], (isSubnormal_iff a).mp h⟩

@[simp] theorem isNaN_flushSubnormal (a : Word) : isNaN (flushSubnormal a) = isNaN a := by
  rw [Bool.eq_iff_iff, isNaN_iff, isNaN_iff]
  have := magnitude_flushSubnormal a
  omega

@[simp] theorem isFinite_flushSubnormal (a : Word) : isFinite (flushSubnormal a) = isFinite a := by
  rw [Bool.eq_iff_iff, isFinite_iff, isFinite_iff]
  have := magnitude_flushSubnormal a
  omega

/-! ### Magnitudes as numbers -/

/-- How many units of 2^-149 a magnitude stands for: the fraction alone in the subnormal binade, else the fraction with the
hidden bit, shifted to its binade. At the infinities' magnitude the formula goes on and gives 2^128. -/
def units (m : Nat) : Nat :=
  if m / 2 ^ 23 = 0 then m else (m % 2 ^ 23 + 2 ^ 23) * 2 ^ (m / 2 ^ 23 - 1)

/-- The pattern `e * 2^23 + m` stands for `m` steps of `2^e`, up to and including the first number of the next binade. -/
theorem units_binade {e m : Nat} (hm : m ≤ 2 ^ 24) (he : e = 0 ∨ 2 ^ 23 ≤ m) :
    units (e * 2 ^ 23 + m) = m * 2 ^ e := by
  rcases hm.lt_or_eq with hlt | rfl
  · rcases Nat.lt_or_ge m (2 ^ 23) with hsub | hge
    · obtain rfl : e = 0 := by omega
      rw [units, if_pos (by omega)]
      simp
    · have hd : (e * 2 ^ 23 + m) / 2 ^ 23 = e + 1 := by omega
      have hr : (e * 2 ^ 23 + m) % 2 ^ 23 + 2 ^ 23 = m := by omega
      rw [units, hd, hr, if_neg (by omega), Nat.add_sub_cancel]
  · have hd : (e * 2 ^ 23 + 2 ^ 24) / 2 ^ 23 = e + 2 := by omega
    have hr : (e * 2 ^ 23 + 2 ^ 24) % 2 ^ 23 = 0 := by omega
    rw [units, hd, hr, if_neg (by omega), show e + 2 - 1 = e + 1 by omega, pow_succ]
    ring

/-- Every magnitude is `m` steps of `2^e` in some binade. -/
theorem exists_binade (c : Nat) :
    ∃ e m, c = e * 2 ^ 23 + m ∧ m < 2 ^ 24 ∧ (e = 0 ∨ 2 ^ 23 ≤ m) := by
  rcases Nat.lt_or_ge c (2 ^ 23) with h | h
  · exact ⟨0, c, by omega, by omega, .inl rfl⟩
  · exact ⟨c / 2 ^ 23 - 1, c % 2 ^ 23 + 2 ^ 23, by omega, by omega, .inr (by omega)⟩

theorem units_strictMono : StrictMono units := by
  refine strictMono_nat_of_lt_succ fun c => ?_
  obtain ⟨e, m, rfl, hm, he⟩ := exists_binade c
  rw [add_assoc, units_binade hm.le he, units_binade hm (by omega)]
  exact Nat.mul_lt_mul_of_pos_right (Nat.lt_succ_self m) (by positivity)

@[simp] theorem units_zero : units 0 = 0 := rfl

@[simp] theorem units_eq_zero_iff {c : Nat} : units c = 0 ↔ c = 0 :=
  units_strictMono.injective.eq_iff' units_zero

/-- Every number of at most 24 significant bits is a magnitude's. -/
theorem exists_units_eq (j : Nat) : ∀ k ≤ 2 ^ 24, ∃ c, units c = k * 2 ^ j := by
  induction j with
  | zero => exact fun k hk => ⟨k, by simpa using units_binade (e := 0) hk (.inl rfl)⟩
  | succ j ih =>
    intro k hk
    rcases le_or_gt (2 * k) (2 ^ 24) with h | h
    · obtain ⟨c, hc⟩ := ih (2 * k) h
      exact ⟨c, by rw [hc]; ring⟩
    · exact ⟨(j + 1) * 2 ^ 23 + k, units_binade hk (.inr (by omega))⟩

/-- `-1` for a set sign bit. -/
def signFactor (neg : Bool) : ℚ := if neg then -1 else 1

@[simp] theorem signFactor_false : signFactor false = 1 := rfl

@[simp] theorem signFactor_true : signFactor true = -1 := rfl

@[simp] theorem abs_signFactor (neg : Bool) : |signFactor neg| = 1 := by
  cases neg <;> simp

theorem signFactor_xor (x y : Bool) : signFactor (x ^^ y) = signFactor x * signFactor y := by
  cases x <;> cases y <;> simp

/-- The number a pattern stands for, in units of 2^-149. -/
theorem valueOf_eq (a : Word) : valueOf a = signFactor (signBit a) * (units (magnitude a) / 2 ^ 149) := by
  rw [valueOf, expField_eq, fracField_eq, units, signFactor, mul_assoc]
  congr 1
  split
  · next h =>
    rw [h, Nat.mod_eq_of_lt (by omega), div_eq_mul_inv, ← zpow_natCast, ← zpow_neg]
    norm_num
  · next h =>
    have hexp : (max ((magnitude a / 2 ^ 23 : ℕ) : ℤ) 1 : ℤ) - 150 =
        ((magnitude a / 2 ^ 23 - 1 : ℕ) : ℤ) - (149 : ℕ) := by
      omega
    rw [hexp, zpow_sub₀ two_ne_zero, zpow_natCast, zpow_natCast]
    push_cast
    ring

theorem valueOf_signed {m : Nat} (neg : Bool) (h : m < 2 ^ 31) :
    valueOf (signed neg m) = signFactor neg * (units m / 2 ^ 149) := by
  rw [valueOf_eq, signBit_signed neg h, magnitude_signed neg h]

end Sys2Proof.Machine
end

section
/-! SUPPORT. The one rounding of R13: `roundRat` packs the magnitude nearest to an exact number, ties to even. -/

namespace Sys2Proof.Machine

/-- `c` is the magnitude whose number of units is nearest to `x`, an even one if another is as near. No magnitude is left
out, so `c` may lie beyond the infinities'. -/
def NearestEven (x : ℚ) (c : Nat) : Prop :=
  ∀ d, |x - units c| ≤ |x - units d| ∧ (|x - units c| = |x - units d| → d = c ∨ c % 2 = 0)

/-- The two neighbours of a number lie between it and every other magnitude. -/
theorem units_le_or_units_succ_le (c d : Nat) :
    ((units d : ℚ) ≤ units c ∧ (units d = (units c : ℚ) → d = c)) ∨ (units (c + 1) : ℚ) ≤ units d := by
  rcases Nat.lt_or_ge c d with h | h
  · exact .inr (by exact_mod_cast units_strictMono.monotone h)
  · refine .inl ⟨by exact_mod_cast units_strictMono.monotone h, fun e => units_strictMono.injective ?_⟩
    exact_mod_cast e

theorem nearestEven_lower {x : ℚ} {c : Nat} (hc : (units c : ℚ) ≤ x) (hx : 2 * x ≤ units c + units (c + 1))
    (htie : 2 * x = units c + units (c + 1) → c % 2 = 0) : NearestEven x c := by
  intro d
  rw [abs_of_nonneg (sub_nonneg.mpr hc)]
  rcases units_le_or_units_succ_le c d with ⟨hle, hinj⟩ | hge
  · rw [abs_of_nonneg (by linarith)]
    exact ⟨by linarith, fun h => .inl (hinj (by linarith))⟩
  · rw [abs_of_nonpos (by linarith)]
    exact ⟨by linarith, fun h => .inr (htie (by linarith))⟩

theorem nearestEven_upper {x : ℚ} {c : Nat} (hc : x ≤ units (c + 1)) (hx : units c + units (c + 1) ≤ 2 * x)
    (htie : 2 * x = units c + units (c + 1) → (c + 1) % 2 = 0) : NearestEven x (c + 1) := by
  intro d
  rw [abs_of_nonpos (sub_nonpos.mpr hc)]
  rcases units_le_or_units_succ_le c d with ⟨hle, -⟩ | hge
  · rw [abs_of_nonneg (by linarith)]
    exact ⟨by linarith, fun h => .inr (htie (by linarith))⟩
  · rw [abs_of_nonpos (by linarith)]
    refine ⟨by linarith, fun h => .inl (units_strictMono.injective ?_)⟩
    exact_mod_cast (show (units d : ℚ) = units (c + 1) by linarith)

theorem NearestEven.eq_of_units {c d : Nat} (h : NearestEven (units d) c) : c = d := by
  have := (h d).1
  rw [sub_self, abs_zero, abs_nonpos_iff, sub_eq_zero] at this
  exact_mod_cast (units_strictMono.injective (by exact_mod_cast this)).symm

/-- Rounding keeps the order with a number that needs no rounding. -/
theorem NearestEven.le_of_units_le {x : ℚ} {c d : Nat} (h : NearestEven x c) (hd : (units d : ℚ) ≤ x) : d ≤ c := by
  by_contra! hlt
  have hu : (units c : ℚ) < units d := by exact_mod_cast units_strictMono hlt
  have := (h d).1
  rw [abs_of_nonneg (by linarith), abs_of_nonneg (by linarith)] at this
  linarith

/-- A number is rounded beyond the largest finite one exactly from half a unit beyond it on. -/
theorem NearestEven.overflow_iff {x : ℚ} {c : Nat} (h : NearestEven x c) :
    0x7F800000 ≤ c ↔ (2 ^ 25 - 1) * 2 ^ 252 ≤ x := by
  have hmax : (units 0x7F7FFFFF : ℚ) = (2 ^ 25 - 2) * 2 ^ 252 := by
    rw [show 0x7F7FFFFF = 253 * 2 ^ 23 + (2 ^ 24 - 1) from rfl, units_binade (by decide) (by decide), pow_succ]
    push_cast
    ring
  have hinf : (units 0x7F800000 : ℚ) = 2 ^ 25 * 2 ^ 252 := by
    rw [show 0x7F800000 = 253 * 2 ^ 23 + 2 ^ 24 from rfl, units_binade (by decide) (by decide), pow_succ]
    push_cast
    ring
  obtain ⟨hm, -⟩ := h 0x7F7FFFFF
  obtain ⟨hi, heven⟩ := h 0x7F800000
  rw [hmax] at hm
  rw [hinf] at hi heven
  have hy : (0 : ℚ) < 2 ^ 252 := by positivity
  generalize (2 : ℚ) ^ 252 = y at *
  constructor
  · intro hc
    have hu : (2 ^ 25 * y : ℚ) ≤ units c := hinf ▸ by exact_mod_cast units_strictMono.monotone hc
    by_contra! hlt
    rw [abs_of_nonpos (by linarith)] at hm
    rcases abs_cases (x - (2 ^ 25 - 2) * y) with ⟨e, -⟩ | ⟨e, -⟩ <;> linarith
  · intro hx
    by_contra! hlt
    have hu : (units c : ℚ) ≤ (2 ^ 25 - 2) * y :=
      hmax ▸ by exact_mod_cast units_strictMono.monotone (Nat.le_of_lt_succ hlt)
    rw [abs_of_nonneg (by linarith)] at hi heven
    rcases abs_cases (x - 2 ^ 25 * y) with ⟨e, -⟩ | ⟨e, -⟩
    · linarith
    · have hc : c = 0x7F7FFFFF :=
        units_strictMono.injective (by exact_mod_cast (show (units c : ℚ) = units 0x7F7FFFFF by linarith))
      have := heven (by linarith)
      omega

/-! ### The magnitude `roundRat` packs -/

/-- The magnitude before the overflow to an infinity. -/
def roundMagnitude (p q : Nat) : Nat :=
  let e := (p / q).log2 - 23
  let d := q * 2 ^ e
  let m := p / d
  let r := p % d
  let up := decide (d < 2 * r) || (2 * r == d && m % 2 == 1)
  e * 2 ^ 23 + if up then m + 1 else m

theorem roundRat_eq_signed (neg : Bool) (p q : Nat) :
    roundRat neg p q = signed neg (min (roundMagnitude p q) 0x7F800000) := rfl

/-- With the binade's step `2^e`, `e` as `roundRat` chooses it, a number has 24 significant bits, or fewer in the lowest
binades. -/
theorem significand_bounds (n : Nat) :
    n / 2 ^ (n.log2 - 23) < 2 ^ 24 ∧ (n.log2 - 23 = 0 ∨ 2 ^ 23 ≤ n / 2 ^ (n.log2 - 23)) := by
  have hlt : n < 2 ^ (n.log2 + 1) := Nat.lt_log2_self
  constructor
  · rw [Nat.div_lt_iff_lt_mul (by positivity), ← pow_add]
    exact hlt.trans_le (Nat.pow_le_pow_right (by decide) (by omega))
  · refine or_iff_not_imp_left.mpr fun he => ?_
    rw [Nat.le_div_iff_mul_le (by positivity), ← pow_add, show 23 + (n.log2 - 23) = n.log2 by omega]
    exact Nat.log2_self_le (by rintro rfl; simp at he)

/-- `m` steps of `2^e` and a remainder of `r / d` of a step: `m` or `m + 1` steps are nearest, as the remainder says. -/
theorem nearestEven_of_remainder {e m r d : Nat} (hm : m < 2 ^ 24) (he : e = 0 ∨ 2 ^ 23 ≤ m) (hr : r < d) :
    NearestEven ((m + r / d) * 2 ^ e)
      (e * 2 ^ 23 + if decide (d < 2 * r) || (2 * r == d && m % 2 == 1) then m + 1 else m) := by
  have hlo : (units (e * 2 ^ 23 + m) : ℚ) = m * 2 ^ e := by
    rw [units_binade hm.le he]
    push_cast
    rfl
  have hhi : (units (e * 2 ^ 23 + m + 1) : ℚ) = (m + 1) * 2 ^ e := by
    rw [add_assoc, units_binade hm (by omega)]
    push_cast
    rfl
  have hd : (0 : ℚ) < d := by exact_mod_cast r.zero_le.trans_lt hr
  have hpow : (0 : ℚ) < 2 ^ e := by positivity
  have hdouble : 2 * ((m + r / d) * 2 ^ e : ℚ) = (2 * m + ↑(2 * r) / d) * 2 ^ e := by
    push_cast
    ring
  have hsum : (units (e * 2 ^ 23 + m) + units (e * 2 ^ 23 + m + 1) : ℚ) = (2 * m + 1) * 2 ^ e := by
    rw [hlo, hhi]
    ring
  have hbelow : 2 * ((m + r / d) * 2 ^ e : ℚ) ≤ units (e * 2 ^ 23 + m) + units (e * 2 ^ 23 + m + 1) ↔
      2 * r ≤ d := by
    rw [hdouble, hsum, mul_le_mul_iff_left₀ hpow, add_le_add_iff_left, div_le_one hd, Nat.cast_le]
  have habove : (units (e * 2 ^ 23 + m) + units (e * 2 ^ 23 + m + 1) : ℚ) ≤ 2 * ((m + r / d) * 2 ^ e) ↔
      d ≤ 2 * r := by
    rw [hdouble, hsum, mul_le_mul_iff_left₀ hpow, add_le_add_iff_left, one_le_div hd, Nat.cast_le]
  split
  · next hup =>
    simp only [Bool.or_eq_true, decide_eq_true_eq, Bool.and_eq_true, beq_iff_eq] at hup
    rw [← add_assoc]
    refine nearestEven_upper ?_ (habove.mpr (by omega)) fun htie => ?_
    · rw [hhi, mul_le_mul_iff_left₀ hpow, add_le_add_iff_left, div_le_one hd, Nat.cast_le]
      exact hr.le
    · have := hbelow.mp htie.le
      omega
  · next hup =>
    simp only [Bool.or_eq_true, decide_eq_true_eq, Bool.and_eq_true, beq_iff_eq] at hup
    refine nearestEven_lower ?_ (hbelow.mpr (by omega)) fun htie => ?_
    · rw [hlo, mul_le_mul_iff_left₀ hpow]
      exact le_add_of_nonneg_right (by positivity)
    · have := habove.mp htie.ge
      omega

theorem nearestEven_roundMagnitude (p : Nat) {q : Nat} (hq : 0 < q) :
    NearestEven (p / q : ℚ) (roundMagnitude p q) := by
  obtain ⟨hm, he⟩ := significand_bounds (p / q)
  simp only [roundMagnitude]
  generalize (p / q).log2 - 23 = e at *
  rw [Nat.div_div_eq_div_mul] at hm he
  have hd : 0 < q * 2 ^ e := Nat.mul_pos hq (by positivity)
  have hx : (p / q : ℚ) = (↑(p / (q * 2 ^ e)) + ↑(p % (q * 2 ^ e)) / ↑(q * 2 ^ e)) * 2 ^ e := by
    have hp : (p : ℚ) = ↑(q * 2 ^ e) * ↑(p / (q * 2 ^ e)) + ↑(p % (q * 2 ^ e)) := by
      exact_mod_cast (Nat.div_add_mod p _).symm
    have hq' : (q : ℚ) ≠ 0 := Nat.cast_ne_zero.mpr hq.ne'
    rw [hp]
    push_cast
    field_simp
  rw [hx]
  exact nearestEven_of_remainder hm he (Nat.mod_lt _ hd)

/-! ### `roundRat` rounds -/

theorem magnitude_roundRat (neg : Bool) (p q : Nat) :
    magnitude (roundRat neg p q) = min (roundMagnitude p q) 0x7F800000 := by
  rw [roundRat_eq_signed, magnitude_signed]
  omega

theorem abs_sub_of_same_sign (neg : Bool) (x y : ℚ) :
    |signFactor neg * (x / 2 ^ 149) - signFactor neg * (y / 2 ^ 149)| = |x - y| / 2 ^ 149 := by
  rw [← mul_sub, ← sub_div, abs_mul, abs_signFactor, one_mul, abs_div, abs_of_pos (by positivity : (0 : ℚ) < 2 ^ 149)]

theorem abs_sub_of_opposite_sign (neg : Bool) {x y : ℚ} (hx : 0 ≤ x) (hy : 0 ≤ y) :
    |signFactor neg * (x / 2 ^ 149) - signFactor (!neg) * (y / 2 ^ 149)| = (x + y) / 2 ^ 149 := by
  have h : signFactor (!neg) = -signFactor neg := by cases neg <;> simp
  rw [h, neg_mul, sub_neg_eq_add, ← mul_add, ← add_div, abs_mul, abs_signFactor, one_mul, abs_of_nonneg (by positivity)]

/-- Among the finite patterns of either sign, the one with the nearest magnitude and the sign of the number is nearest. -/
theorem NearestEven.signed_nearest {x : ℚ} {c : Nat} (h : NearestEven x c) (hx : 0 ≤ x) (neg : Bool) (hc : c < 2 ^ 31)
    (d : Word) :
    |signFactor neg * (x / 2 ^ 149) - valueOf (signed neg c)| ≤ |signFactor neg * (x / 2 ^ 149) - valueOf d| ∧
      (|signFactor neg * (x / 2 ^ 149) - valueOf (signed neg c)| = |signFactor neg * (x / 2 ^ 149) - valueOf d| →
        valueOf d = valueOf (signed neg c) ∨ c % 2 = 0) := by
  obtain ⟨hle, htie⟩ := h (magnitude d)
  have hd : (0 : ℚ) ≤ units (magnitude d) := Nat.cast_nonneg _
  rw [valueOf_signed neg hc, valueOf_eq d, abs_sub_of_same_sign]
  rcases Bool.eq_or_eq_not (signBit d) neg with hs | hs <;> rw [hs]
  · rw [abs_sub_of_same_sign, div_le_div_iff_of_pos_right (by positivity), div_left_inj' (by positivity)]
    exact ⟨hle, fun e => (htie e).imp_left fun hdc => by rw [hdc]⟩
  · rw [abs_sub_of_opposite_sign neg hx hd, div_le_div_iff_of_pos_right (by positivity), div_left_inj' (by positivity)]
    have hsum : |x - units (magnitude d)| ≤ x + units (magnitude d) := abs_le.mpr ⟨by linarith, by linarith⟩
    refine ⟨hle.trans hsum, fun e => (htie (le_antisymm hle (hsum.trans e.ge))).imp_left fun hdc => ?_⟩
    obtain ⟨hzero, -⟩ := h 0
    rw [e, units_zero, Nat.cast_zero, sub_zero, abs_of_nonneg hx] at hzero
    rw [← hdc, show (units (magnitude d) : ℚ) = 0 by linarith, zero_div, mul_zero, mul_zero]

/-- A magnitude nearest to `|x|`, packed with the sign of `x`, is `x` rounded. -/
theorem roundsTo_of_nearestEven {x : ℚ} {c : Nat} (neg : Bool) (hx : 0 ≤ x) (h : NearestEven x c) :
    RoundsTo (signFactor neg * (x / 2 ^ 149)) (signed neg (min c 0x7F800000)) := by
  have hlt : min c 0x7F800000 < 2 ^ 31 := by omega
  have habs : |signFactor neg * (x / 2 ^ 149)| = x / 2 ^ 149 := by
    rw [abs_mul, abs_signFactor, one_mul, abs_of_nonneg (by positivity)]
  refine ⟨?_, fun hne => ?_, ?_, fun hfin d hd => ?_⟩
  · rw [isNaN_eq_false_iff, magnitude_signed neg hlt]
    omega
  · have hpos : 0 < x / 2 ^ 149 := lt_of_le_of_ne (by positivity) (right_ne_zero_of_mul hne).symm
    rw [signBit_signed neg hlt]
    cases neg <;> simp [hpos, hpos.le]
  · rw [isInf_iff, magnitude_signed neg hlt, habs, le_div_iff₀ (by positivity), min_eq_right_iff, h.overflow_iff,
      show ((2 : ℚ) ^ 128 - 2 ^ 103) * 2 ^ 149 = (2 ^ 25 - 1) * 2 ^ 252 by ring]
  · have hc : c < 0x7F800000 := by
      rw [isFinite_iff, magnitude_signed neg hlt] at hfin
      omega
    rw [min_eq_left hc.le] at hlt ⊢
    have hpar : (signed neg c).toNat % 2 = c % 2 := by
      rw [toNat_signed neg hlt]
      split <;> omega
    rw [hpar]
    exact h.signed_nearest hx neg hlt d

theorem roundsTo_roundRat (neg : Bool) (p : Nat) {q : Nat} (hq : 0 < q) :
    RoundsTo (signFactor neg * (p / q / 2 ^ 149)) (roundRat neg p q) :=
  roundsTo_of_nearestEven neg (by positivity) (nearestEven_roundMagnitude p hq)

/-- A number that is a magnitude's needs no rounding. -/
theorem roundRat_units (neg : Bool) {c : Nat} (hc : c ≤ 0x7F800000) : roundRat neg (units c) 1 = signed neg c := by
  have h := nearestEven_roundMagnitude (units c) Nat.one_pos
  rw [Nat.cast_one, div_one] at h
  rw [roundRat_eq_signed, h.eq_of_units, min_eq_left hc]

/-- Whole numbers are far above the subnormals. -/
theorem isSubnormal_roundRat_whole (neg : Bool) (k : Nat) : isSubnormal (roundRat neg (k * 2 ^ 149) 1) = false := by
  have h := nearestEven_roundMagnitude (k * 2 ^ 149) Nat.one_pos
  rw [Nat.cast_one, div_one] at h
  rw [isSubnormal_eq_false_iff, magnitude_roundRat]
  rcases Nat.eq_zero_or_pos k with rfl | hk
  · left
    simp [show roundMagnitude 0 1 = 0 from rfl]
  · right
    refine le_min (h.le_of_units_le ?_) (by decide)
    rw [show units (2 ^ 23) = 2 ^ 23 from rfl]
    norm_cast
    exact (Nat.pow_le_pow_right (by decide) (by decide)).trans (Nat.le_mul_of_pos_left _ hk)

end Sys2Proof.Machine
end

section
/-! SUPPORT. What an operand is read as (R14), by the kind of its pattern, and the exact results of the operations. -/

namespace Sys2Proof.Machine

theorem operand_of_isNaN {a : Word} (h : isNaN a = true) : operand a = .nan := by
  rw [operand, flushSubnormal_of_not (isSubnormal_of_isNaN h), unpack]
  simp only [isNaN, Bool.and_eq_true, beq_iff_eq, bne_iff_ne] at h
  rw [if_pos h.1, if_neg h.2]

theorem operand_of_isInf {a : Word} (h : isInf a = true) : operand a = .inf (signBit a) := by
  rw [operand, flushSubnormal_of_not (isSubnormal_of_isInf h), unpack]
  simp only [isInf, Bool.and_eq_true, beq_iff_eq] at h
  rw [if_pos h.1, if_pos h.2]

theorem unpack_of_isFinite {a : Word} (h : isFinite a = true) : unpack a = .fin (signBit a) (units (magnitude a)) := by
  rw [isFinite, bne_iff_ne] at h
  rw [unpack, if_neg h, expField_eq, fracField_eq, units]
  split
  · next hsub => rw [Nat.mod_eq_of_lt (by omega)]
  · rfl

theorem operand_of_isFinite {a : Word} (h : isFinite a = true) :
    operand a = .fin (signBit a) (units (magnitude (flushSubnormal a))) := by
  rw [operand, unpack_of_isFinite (by rwa [isFinite_flushSubnormal]), signBit_flushSubnormal]

theorem operandValue_eq (a : Word) :
    operandValue a = signFactor (signBit a) * (units (magnitude (flushSubnormal a)) / 2 ^ 149) := by
  rw [operandValue, valueOf_eq, signBit_flushSubnormal]

/-- A finite operand, read: its sign and its whole number of units. -/
theorem finite_operand {a : Word} (h : isFinite a = true) :
    ∃ n, operand a = .fin (signBit a) n ∧ operandValue a = signFactor (signBit a) * (n / 2 ^ 149) :=
  ⟨_, operand_of_isFinite h, operandValue_eq a⟩

theorem signFactor_mul_units_eq_zero_iff {neg : Bool} {n : Nat} :
    signFactor neg * (n / 2 ^ 149 : ℚ) = 0 ↔ n = 0 := by
  cases neg <;> simp

theorem cast_signedInt (neg : Bool) (n : Nat) : (signedInt neg n : ℚ) = signFactor neg * n := by
  cases neg <;> simp [signedInt]

/-- Sign and absolute value make up an integer, whatever the sign of zero is taken to be. -/
theorem signFactor_mul_natAbs {neg : Bool} {z : Int} (h : z ≠ 0 → neg = decide (z < 0)) :
    signFactor neg * (z.natAbs : ℚ) = z := by
  rw [Nat.cast_natAbs]
  rcases lt_trichotomy z 0 with hz | rfl | hz
  · simp [h hz.ne, hz, abs_of_neg hz]
  · simp
  · simp [h hz.ne', hz.not_gt, abs_of_pos hz]

@[simp] theorem isQuietNaN_quietNaN (k : Nat) (op : FpOp) (a b : Word) : isQuietNaN (quietNaN k op a b) = true := by
  rw [isQuietNaN, isNaN_quietNaN, Bool.true_and, quietNaN, BitVec.getLsbD_append, BitVec.getLsbD_append]
  simp

/-! ### Exact results of finite operands -/

section ExactResults

variable (x y : Bool) (m n : Nat)

/-- The exact sum, rounded, with IEEE's sign of an exact zero. -/
theorem roundsTo_sum :
    let s := signFactor x * (m / 2 ^ 149 : ℚ) + signFactor y * (n / 2 ^ 149 : ℚ)
    let z := signedInt x m + signedInt y n
    let r := roundRat (if z = 0 then x && y else decide (z < 0)) z.natAbs 1
    RoundsTo s r ∧ (s = 0 → signBit r = (x && y)) := by
  intro s z r
  have hs : s = (z : ℚ) / 2 ^ 149 := by
    simp only [s, z, Int.cast_add, cast_signedInt]
    ring
  have hz : (z : ℚ) = signFactor (if z = 0 then x && y else decide (z < 0)) * (z.natAbs / (1 : ℕ)) := by
    rw [Nat.cast_one, div_one, signFactor_mul_natAbs fun h => if_neg h]
  constructor
  · rw [hs, hz, mul_div_assoc]
    exact roundsTo_roundRat _ _ Nat.one_pos
  · intro h0
    have : z = 0 := by simpa [hs] using h0
    rw [signBit_roundRat, if_pos this]

theorem roundsTo_product :
    RoundsTo (signFactor x * (m / 2 ^ 149) * (signFactor y * (n / 2 ^ 149)))
      (roundRat (x ^^ y) (m * n) (2 ^ 149)) := by
  have h := roundsTo_roundRat (x ^^ y) (m * n) (Nat.two_pow_pos 149)
  rw [signFactor_xor] at h
  convert h using 1
  push_cast
  ring

theorem roundsTo_quotient (hn : n ≠ 0) :
    RoundsTo (signFactor x * (m / 2 ^ 149) / (signFactor y * (n / 2 ^ 149)))
      (roundRat (x ^^ y) (m * 2 ^ 149) n) := by
  have h := roundsTo_roundRat (x ^^ y) (m * 2 ^ 149) (Nat.pos_of_ne_zero hn)
  have hsign : signFactor x / signFactor y = signFactor x * signFactor y := by
    cases y <;> simp [div_neg]
  rw [signFactor_xor, div_right_comm, Nat.cast_mul, Nat.cast_pow, Nat.cast_ofNat,
    mul_div_cancel_right₀ _ (by positivity)] at h
  rwa [mul_div_mul_comm, hsign, div_div_div_cancel_right₀ (by positivity)]

end ExactResults

/-- Settles O56: the operations on unpacked operands are `roundRat` of the exact result, and `roundRat` rounds. -/
theorem finiteArithmeticRoundsOnce : Obligations.FiniteArithmeticRoundsOnce := by
  unfold Obligations.FiniteArithmeticRoundsOnce
  intro k a b hfa hfb
  obtain ⟨m, ha, hva⟩ := finite_operand hfa
  obtain ⟨n, hb, hvb⟩ := finite_operand hfb
  simp only [hva, hvb, ne_eq, signFactor_mul_units_eq_zero_iff]
  refine ⟨?_, ?_, ?_, fun hn => ?_, fun hn hm => ?_, fun hn hm => ?_⟩
  · obtain ⟨hr, h0⟩ := roundsTo_sum (signBit a) (signBit b) m n
    exact ⟨_, hr, h0, fadd_fin ha hb⟩
  · have hneg : signFactor (!signBit b) = -signFactor (signBit b) := by cases signBit b <;> simp
    obtain ⟨hr, h0⟩ := roundsTo_sum (signBit a) (!signBit b) m n
    rw [hneg, neg_mul, ← sub_eq_add_neg] at hr h0
    exact ⟨_, hr, h0, fsub_fin ha hb⟩
  · exact ⟨_, roundsTo_product _ _ m n, fun _ => signBit_roundRat .., fmul_fin ha hb⟩
  · exact ⟨_, roundsTo_quotient _ _ m n hn, fun _ => signBit_roundRat .., fdiv_fin ha hb hn⟩
  · simp [fdiv, ha, hb, divVal, hn, hm]
  · simp [fdiv, ha, hb, divVal, hn, hm]

/-- Settles O57: one case for each pair of kinds of operands. -/
theorem specialOperandsFollowIeee : Obligations.SpecialOperandsFollowIeee := by
  unfold Obligations.SpecialOperandsFollowIeee
  intro k a b
  refine ⟨?_, fun hia hfb => ?_, fun hfa hib => ?_, fun hia hib => ?_⟩
  · rintro (h | h)
    · have ha := operand_of_isNaN h
      simp [fadd_nan_left ha, fsub_nan_left ha, fmul_nan_left ha, fdiv_nan_left ha]
    · have hb := operand_of_isNaN h
      simp [fadd_nan_right hb, fsub_nan_right hb, fmul_nan_right hb, fdiv_nan_right hb]
  · obtain ⟨n, hb, hvb⟩ := finite_operand hfb
    have ha := operand_of_isInf hia
    rw [hvb, ne_eq, signFactor_mul_units_eq_zero_iff]
    refine ⟨?_, ?_, ?_, fun hn => ?_, fun hn => ?_⟩
    · simp [fadd, ha, hb, addVal, infOf_signBit hia]
    · simp [fsub, ha, hb, addVal, FVal.negate, infOf_signBit hia]
    · simp [fdiv, ha, hb, divVal]
    · simp [fmul, ha, hb, mulVal, hn]
    · simp [fmul, ha, hb, mulVal, hn]
  · obtain ⟨m, ha, hva⟩ := finite_operand hfa
    have hb := operand_of_isInf hib
    rw [hva, ne_eq, signFactor_mul_units_eq_zero_iff]
    refine ⟨?_, ?_, ?_, fun hm => ?_, fun hm => ?_⟩
    · simp [fadd, ha, hb, addVal, infOf_signBit hib]
    · simp [fsub, ha, hb, addVal, FVal.negate, ← fneg_infOf, infOf_signBit hib]
    · simp [fdiv, ha, hb, divVal]
    · simp [fmul, ha, hb, mulVal, hm]
    · simp [fmul, ha, hb, mulVal, hm]
  · have ha := operand_of_isInf hia
    have hb := operand_of_isInf hib
    refine ⟨fun hs => ⟨?_, ?_⟩, fun hs => ⟨?_, ?_⟩, ?_, ?_⟩
    · simp [fadd, ha, hb, addVal, ← hs, infOf_signBit hia]
    · simp [fsub, ha, hb, addVal, FVal.negate, hs]
    · simp [fadd, ha, hb, addVal, hs]
    · simp [fsub, ha, hb, addVal, FVal.negate, Bool.eq_not.mpr hs.symm, infOf_signBit hia]
    · simp [fmul, ha, hb, mulVal]
    · simp [fdiv, ha, hb, divVal]

end Sys2Proof.Machine
end

section
/-! The order of the patterns is the order of the numbers (R15). -/

namespace Sys2Proof.Machine

/-- The number whose place in the order is `z`. -/
def keyValue (z : Int) : ℚ := if z < 0 then -(units z.natAbs / 2 ^ 149) else units z.natAbs / 2 ^ 149

theorem keyValue_signedInt (neg : Bool) (m : Nat) :
    keyValue (signedInt neg m) = signFactor neg * (units m / 2 ^ 149) := by
  rcases Nat.eq_zero_or_pos m with rfl | hm
  · cases neg <;> simp [keyValue, signedInt]
  · cases neg
    · simp [keyValue, signedInt]
    · simp [keyValue, signedInt, hm]

theorem keyValue_strictMono : StrictMono keyValue := by
  intro y z h
  have hlt {m n : Nat} (hmn : m < n) : (units m / 2 ^ 149 : ℚ) < units n / 2 ^ 149 := by
    rw [div_lt_div_iff_of_pos_right (by positivity)]
    exact_mod_cast units_strictMono hmn
  rw [keyValue, keyValue]
  split <;> split
  · exact neg_lt_neg (hlt (by omega))
  · have h1 := hlt (show 0 < y.natAbs by omega)
    have h2 : (0 : ℚ) ≤ units z.natAbs / 2 ^ 149 := by positivity
    rw [units_zero, Nat.cast_zero, zero_div] at h1
    linarith
  · omega
  · exact hlt (by omega)

/-- A pattern that is no NaN has a place in the order, an infinity's being that of 2^128. -/
theorem exists_orderKey {a : Word} (h : isNaN a = false) : ∃ z, orderKey a = some z ∧ orderValue a = keyValue z := by
  refine ⟨_, by rw [orderKey, if_neg (by simp [h])], ?_⟩
  change _ = keyValue (signedInt (signBit (flushSubnormal a)) (magnitude (flushSubnormal a)))
  rw [keyValue_signedInt, signBit_flushSubnormal, orderValue, operandValue_eq]
  split
  · next hi =>
    have hm : (units (magnitude (flushSubnormal a)) / 2 ^ 149 : ℚ) = 2 ^ 128 := by
      rw [flushSubnormal_of_not (isSubnormal_of_isInf hi), (isInf_iff a).mp hi,
        show 0x7F800000 = 253 * 2 ^ 23 + 2 ^ 24 from rfl, units_binade (by decide) (by decide)]
      norm_num
    rw [hm]
    cases signBit a <;> simp
  · rfl

theorem feq_nan_left {a b : Word} (h : isNaN a = true) : feq a b = false := by
  simp [feq, (orderKey_eq_none_iff a).mpr h]

theorem feq_nan_right {a b : Word} (h : isNaN b = true) : feq a b = false := by
  cases ha : orderKey a <;> simp [feq, ha, (orderKey_eq_none_iff b).mpr h]

@[simp] theorem orderKey_flushSubnormal (a : Word) : orderKey (flushSubnormal a) = orderKey a := by
  simp [orderKey]

end Sys2Proof.Machine
end

section
/-! `floor` and `i2f` (R15, R17) pack whole numbers, which need no rounding where they have 24 significant bits. -/

namespace Sys2Proof.Machine

/-- Rounding changes no number of at most 24 significant bits below 2^128. -/
theorem roundRat_exact (neg : Bool) {k j : Nat} (hk : k ≤ 2 ^ 24) (hlt : k * 2 ^ j < 2 ^ 24 * 2 ^ 253) :
    ∃ c < 0x7F800000, roundRat neg (k * 2 ^ j) 1 = signed neg c ∧ units c = k * 2 ^ j := by
  obtain ⟨c, hc⟩ := exists_units_eq j k hk
  have hinf : units 0x7F800000 = 2 ^ 24 * 2 ^ 253 := units_binade (e := 253) (m := 2 ^ 24) le_rfl (by decide)
  have hcT : c < 0x7F800000 := units_strictMono.lt_iff_lt.mp (by rw [hc, hinf]; exact hlt)
  exact ⟨c, hcT, by rw [← hc, roundRat_units neg hcT.le], hc⟩

theorem valueOf_roundRat_exact (neg : Bool) {k j : Nat} (hk : k ≤ 2 ^ 24) (hlt : k * 2 ^ j < 2 ^ 24 * 2 ^ 253) :
    isFinite (roundRat neg (k * 2 ^ j) 1) = true ∧
      valueOf (roundRat neg (k * 2 ^ j) 1) = signFactor neg * (↑(k * 2 ^ j) / 2 ^ 149) := by
  obtain ⟨c, hcT, hr, hc⟩ := roundRat_exact neg hk hlt
  rw [hr, isFinite_iff, magnitude_signed neg (by omega), valueOf_signed neg (by omega), hc]
  exact ⟨hcT, rfl⟩

theorem ffloor_of_not_finite {a : Word} (h : isFinite a = false) : ffloor a = a := by
  rcases isNaN_or_isInf_of_not_finite h with hn | hi
  · rw [ffloor, operand_of_isNaN hn]
  · rw [ffloor, operand_of_isInf hi]

theorem ffloor_of_zero {a : Word} {neg : Bool} (h : operand a = .fin neg 0) : ffloor a = flushSubnormal a := by
  simp [ffloor, h]

/-- What is added to the units of a number before the division that takes its floor. -/
def floorBias (neg : Bool) : Nat := if neg then 2 ^ 149 - 1 else 0

theorem floorBias_lt (neg : Bool) : floorBias neg < 2 ^ 149 := by cases neg <;> decide

theorem ffloor_of_fin {a : Word} {neg : Bool} {n : Nat} (h : operand a = .fin neg n) (hn : n ≠ 0) :
    ffloor a = roundRat neg ((n + floorBias neg) / 2 ^ 149 * 2 ^ 149) 1 := by
  cases neg <;> simp [ffloor, h, hn, floorBias]

theorem floor_signed_units (neg : Bool) (n : Nat) :
    ⌊signFactor neg * (n / 2 ^ 149 : ℚ)⌋ = signedInt neg ((n + floorBias neg) / 2 ^ 149) := by
  have h := Rat.floor_intCast_div_natCast (signedInt neg n) (2 ^ 149)
  rw [cast_signedInt, mul_div_assoc, Nat.cast_pow, Nat.cast_ofNat] at h
  rw [h]
  cases neg
  · simp [signedInt, floorBias]
  · simp only [signedInt, floorBias, if_true]
    push_cast
    omega

/-- The whole number just below or above a binary32 number has at most 24 significant bits, too. -/
theorem whole_significant_bits {m e t : Nat} (hm : m < 2 ^ 24) (he : e ≤ 253) (ht : t < 2 ^ 149) :
    ∃ k j, k ≤ 2 ^ 24 ∧ k * 2 ^ j < 2 ^ 24 * 2 ^ 253 ∧ (m * 2 ^ e + t) / 2 ^ 149 * 2 ^ 149 = k * 2 ^ j := by
  rcases Nat.lt_or_ge e 149 with hlt | hge
  · have hpow : m * 2 ^ e ≤ (2 ^ 24 - 1) * 2 ^ 148 :=
      Nat.mul_le_mul (by omega) (Nat.pow_le_pow_right (by decide) (by omega))
    exact ⟨(m * 2 ^ e + t) / 2 ^ 149, 149, by omega, by omega, rfl⟩
  · obtain ⟨i, rfl⟩ := Nat.exists_eq_add_of_le' hge
    refine ⟨m, i + 149, hm.le, ?_, ?_⟩
    · exact Nat.mul_lt_mul_of_lt_of_le hm (Nat.pow_le_pow_right (by decide) he) (by positivity)
    · rw [pow_add, ← mul_assoc, Nat.add_comm, Nat.add_mul_div_right _ _ (by positivity), Nat.div_eq_of_lt ht, zero_add]

/-- `floor` of a finite pattern is a finite pattern of just that whole number. -/
theorem isFinite_ffloor_and_value {a : Word} (h : isFinite a = true) :
    isFinite (ffloor a) = true ∧ valueOf (ffloor a) = ⌊operandValue a⌋ := by
  have ha := operand_of_isFinite h
  rcases Nat.eq_zero_or_pos (units (magnitude (flushSubnormal a))) with h0 | hpos
  · have hv : operandValue a = 0 := by simp [operandValue_eq, h0]
    rw [h0] at ha
    rw [ffloor_of_zero ha, isFinite_flushSubnormal, hv, Int.floor_zero, Int.cast_zero]
    exact ⟨h, hv⟩
  · rw [ffloor_of_fin ha hpos.ne', operandValue_eq, floor_signed_units, cast_signedInt]
    have hc : magnitude (flushSubnormal a) < 0x7F800000 := (isFinite_iff _).mp (by rwa [isFinite_flushSubnormal])
    obtain ⟨e, m, hcm, hm, he⟩ := exists_binade (magnitude (flushSubnormal a))
    rw [hcm] at hc
    obtain ⟨k, j, hk, hlt, hkj⟩ := whole_significant_bits hm (e := e) (by omega) (floorBias_lt (signBit a))
    rw [hcm, units_binade hm.le he]
    obtain ⟨hfin, hval⟩ := valueOf_roundRat_exact (signBit a) hk hlt
    rw [← hkj] at hfin hval
    refine ⟨hfin, hval.trans ?_⟩
    rw [Nat.cast_mul, Nat.cast_pow, Nat.cast_ofNat, mul_div_cancel_right₀ _ (by positivity)]

/-- Settles O58: the keys the comparisons compare are in the order of the numbers, and `floor` packs a whole number of at
most 24 significant bits. -/
theorem comparisonsFloorAndClamp : Obligations.ComparisonsFloorAndClamp := by
  unfold Obligations.ComparisonsFloorAndClamp
  refine ⟨?_, fun a b ha hb => ?_, fun a => ffloor_of_not_finite, fun a h => ?_, fun _ _ _ => rfl⟩
  · rintro a b (h | h)
    · exact ⟨flt_nan_left h, fle_nan_left h, flt_nan_right h, fle_nan_right h, feq_nan_left h⟩
    · exact ⟨flt_nan_right h, fle_nan_right h, flt_nan_left h, fle_nan_left h, feq_nan_right h⟩
  · obtain ⟨x, hx, hax⟩ := exists_orderKey ha
    obtain ⟨y, hy, hby⟩ := exists_orderKey hb
    simp only [hax, hby, keyValue_strictMono.lt_iff_lt, keyValue_strictMono.le_iff_le,
      keyValue_strictMono.injective.eq_iff]
    exact ⟨flt_of_keys hx hy, fle_of_keys hx hy, flt_of_keys hy hx, fle_of_keys hy hx, feq_of_keys hx hy⟩
  · obtain ⟨hfin, hval⟩ := isFinite_ffloor_and_value h
    refine ⟨hfin, hval, fun h0 => ?_⟩
    obtain ⟨n, ha, hv⟩ := finite_operand h
    rw [hv, signFactor_mul_units_eq_zero_iff] at h0
    exact ffloor_of_zero (h0 ▸ ha)

/-- Settles O59: `i2f` is `roundRat` of the int32, which needs no rounding up to 2^24. -/
theorem intToFloatRoundsToNearest : Obligations.IntToFloatRoundsToNearest := by
  unfold Obligations.IntToFloatRoundsToNearest
  intro n
  have hn : signFactor (decide (n.toInt < 0)) * ((n.toInt.natAbs * 2 ^ 149 : ℕ) / 2 ^ 149) = n.toInt := by
    rw [Nat.cast_mul, Nat.cast_pow, Nat.cast_ofNat, mul_div_cancel_right₀ _ (by positivity),
      signFactor_mul_natAbs fun _ => rfl]
  refine ⟨?_, ?_, fun h => ?_⟩
  · have hr := roundsTo_roundRat (decide (n.toInt < 0)) (n.toInt.natAbs * 2 ^ 149) Nat.one_pos
    rwa [Nat.cast_one, div_one, hn] at hr
  · rintro rfl
    decide
  · have hlt : n.toInt.natAbs * 2 ^ 149 < 2 ^ 24 * 2 ^ 253 := by omega
    exact (valueOf_roundRat_exact _ h hlt).2.trans hn

end Sys2Proof.Machine
end

section
/-! Every operand is read and every result written as `DENORMAL_MODE` says (R14). -/

namespace Sys2Proof.Machine

theorem flushSubnormal_infOf (neg : Bool) : flushSubnormal (infOf neg) = infOf neg :=
  flushSubnormal_of_not (by cases neg <;> decide)

theorem flushSubnormal_zeroOf (neg : Bool) : flushSubnormal (zeroOf neg) = zeroOf neg :=
  flushSubnormal_of_not (by cases neg <;> decide)

theorem flushSubnormal_roundFlush (neg : Bool) (p q : Nat) :
    flushSubnormal (roundFlush neg p q) = roundFlush neg p q :=
  flushSubnormal_idem _

/-- As a function of the free NaN pattern, a result is that pattern, or else it is one the flush leaves as it is. -/
def FreeOrFlushed (f : Word → Word) : Prop := (∀ p, f p = p) ∨ ∃ r, flushSubnormal r = r ∧ ∀ p, f p = r

theorem freeOrFlushed_ite {c : Prop} [Decidable c] {f g : Word → Word} (hf : FreeOrFlushed f) (hg : FreeOrFlushed g) :
    FreeOrFlushed fun p => if c then f p else g p := by
  split
  · exact hf
  · exact hg

theorem freeOrFlushed_nan : FreeOrFlushed fun p => p := .inl fun _ => rfl

theorem freeOrFlushed_const {r : Word} (h : flushSubnormal r = r) : FreeOrFlushed fun _ => r :=
  .inr ⟨r, h, fun _ => rfl⟩

theorem freeOrFlushed_addVal (x y : FVal) : FreeOrFlushed (addVal · x y) :=
  match x, y with
  | .nan, _ | .inf _, .nan | .fin _ _, .nan => freeOrFlushed_nan
  | .inf _, .inf _ => freeOrFlushed_ite (freeOrFlushed_const (flushSubnormal_infOf _)) freeOrFlushed_nan
  | .inf _, .fin _ _ | .fin _ _, .inf _ => freeOrFlushed_const (flushSubnormal_infOf _)
  | .fin _ _, .fin _ _ => by
    simp only [addVal]
    exact freeOrFlushed_const (flushSubnormal_roundFlush ..)

theorem freeOrFlushed_mulVal (x y : FVal) : FreeOrFlushed (mulVal · x y) :=
  match x, y with
  | .nan, _ | .inf _, .nan | .fin _ _, .nan => freeOrFlushed_nan
  | .inf _, .inf _ => freeOrFlushed_const (flushSubnormal_infOf _)
  | .inf _, .fin _ _ | .fin _ _, .inf _ =>
    freeOrFlushed_ite freeOrFlushed_nan (freeOrFlushed_const (flushSubnormal_infOf _))
  | .fin _ _, .fin _ _ => by
    simp only [mulVal]
    exact freeOrFlushed_const (flushSubnormal_roundFlush ..)

theorem freeOrFlushed_divVal (x y : FVal) : FreeOrFlushed (divVal · x y) :=
  match x, y with
  | .nan, _ | .inf _, .nan | .fin _ _, .nan | .inf _, .inf _ => freeOrFlushed_nan
  | .inf _, .fin _ _ => freeOrFlushed_const (flushSubnormal_infOf _)
  | .fin _ _, .inf _ => freeOrFlushed_const (flushSubnormal_zeroOf _)
  | .fin _ _, .fin _ _ =>
    freeOrFlushed_ite
      (freeOrFlushed_ite freeOrFlushed_nan (freeOrFlushed_const (flushSubnormal_infOf _)))
      (freeOrFlushed_const (flushSubnormal_roundFlush ..))

/-- With two NaN patterns the result is the same number, or a NaN both times. -/
theorem FreeOrFlushed.same {f : Word → Word} (h : FreeOrFlushed f) {p q : Word} (hp : isNaN p = true)
    (hq : isNaN q = true) : isNaN (f p) = isNaN (f q) ∧ (isNaN (f p) = false → f p = f q) := by
  rcases h with hf | ⟨r, -, hf⟩
  · simp [hf, hp, hq]
  · simp [hf]

theorem FreeOrFlushed.flushed {f : Word → Word} (h : FreeOrFlushed f) {p : Word} (hp : isNaN p = true) :
    flushSubnormal (f p) = f p := by
  rcases h with hf | ⟨r, hr, hf⟩
  · rw [hf, flushSubnormal_of_not (isSubnormal_of_isNaN hp)]
  · rw [hf, hr]

theorem flushSubnormal_ffloor (a : Word) : flushSubnormal (ffloor a) = ffloor a := by
  rcases Bool.eq_false_or_eq_true (isFinite a) with h | h
  · obtain ⟨n, ha, -⟩ := finite_operand h
    rcases eq_or_ne n 0 with rfl | hn
    · rw [ffloor_of_zero ha, flushSubnormal_idem]
    · rw [ffloor_of_fin ha hn, flushSubnormal_of_not (isSubnormal_roundRat_whole _ _)]
  · rw [ffloor_of_not_finite h, flushSubnormal_of_not_finite h]

theorem ffloor_flushSubnormal (a : Word) : ffloor (flushSubnormal a) = ffloor a := by
  rcases Bool.eq_false_or_eq_true (isFinite a) with h | h
  · simp [ffloor, operand_of_isFinite h]
  · rw [flushSubnormal_of_not_finite h]

theorem zeroOf_signBit (a : Word) : zeroOf (signBit a) = a &&& 0x80000000 := by
  rw [show (0x80000000 : Word) = BitVec.twoPow 32 31 from rfl, BitVec.and_twoPow]
  change _ = if a.msb then _ else _
  rw [signBit]
  cases a.msb <;> rfl

/-- The flush as R14 says it. -/
theorem flushSubnormal_eq_ite (a : Word) : flushSubnormal a =
    if expField a = 0 ∧ fracField a ≠ 0 ∧ Config.denormalMode = .ftzDaz then a &&& 0x80000000 else a := by
  rw [flushSubnormal, ← zeroOf_signBit]
  cases h : isSubnormal a <;> simp only [isSubnormal, Bool.and_eq_true, Bool.and_eq_false_iff, beq_iff_eq,
    beq_eq_false_iff_ne, bne_iff_ne, bne_eq_false_iff_eq] at h
  · rw [if_neg (by simp), if_neg (by tauto)]
  · cases Config.denormalMode <;> simp [h]

/-- Settles O60: an operation reads its operands through `operand`, a comparison through `orderKey`, and what each writes
is flushed, a NaN, an infinity, a zero or a whole number. -/
theorem resultsFollowDenormalMode : Obligations.ResultsFollowDenormalMode := by
  unfold Obligations.ResultsFollowDenormalMode
  refine ⟨fun k a b => ?_, fun k a b => ?_, fun a => ?_, fun a b => ?_, fun a => ?_, flushSubnormal_eq_ite⟩
  · simp only [fadd, fsub, fmul, fdiv, operand_flushSubnormal]
    exact ⟨(freeOrFlushed_addVal _ _).same (isNaN_quietNaN ..) (isNaN_quietNaN ..),
      (freeOrFlushed_addVal _ _).same (isNaN_quietNaN ..) (isNaN_quietNaN ..),
      (freeOrFlushed_mulVal _ _).same (isNaN_quietNaN ..) (isNaN_quietNaN ..),
      (freeOrFlushed_divVal _ _).same (isNaN_quietNaN ..) (isNaN_quietNaN ..)⟩
  · exact ⟨(freeOrFlushed_addVal _ _).flushed (isNaN_quietNaN ..),
      (freeOrFlushed_addVal _ _).flushed (isNaN_quietNaN ..),
      (freeOrFlushed_mulVal _ _).flushed (isNaN_quietNaN ..),
      (freeOrFlushed_divVal _ _).flushed (isNaN_quietNaN ..)⟩
  · exact ⟨flushSubnormal_ffloor a, flushSubnormal_of_not (isSubnormal_roundRat_whole _ _),
      flushSubnormal_configured .., flushSubnormal_configured .., flushSubnormal_configured ..,
      flushSubnormal_configured ..⟩
  · simp [flt, fle, feq]
  · exact ⟨ffloor_flushSubnormal a, configured_flushSubnormal .., configured_flushSubnormal ..,
      configured_flushSubnormal .., configured_flushSubnormal ..⟩

end Sys2Proof.Machine
end

section
/-! SUPPORT. What one word on the port (R58) makes of the decoder, and what the fetch makes of a packet, cut anywhere. -/

namespace Sys2Proof

theorem decodeCmd_ne_truncated (w d0 d1 : Word) : decodeCmd w d0 d1 ≠ .error .truncated := by
  unfold decodeCmd
  split <;> simp [checked_eq_error_iff]

theorem dataWords_encodeCmd (i : Instr) : dataWords (encodeCmd i) = (encodeData i).length := by
  rw [dataWords, opField_encodeCmd]
  cases i <;> rfl

/-- A command's word, with its data words in their places, decodes to the command; a place it does not use may hold
anything. -/
theorem decodeCmd_encodeCmd {i : Instr} {d0 d1 : Word} (h : encodeData i <+: [d0, d1]) :
    decodeCmd (encodeCmd i) d0 d1 = .ok i := by
  rw [decodeCmd, opField_encodeCmd]
  cases i <;> simp only [encodeData, List.cons_prefix_cons] at h <;>
    simp [opcodeOf, checked, fieldsOk, encodeCmd, vField_cmdWord, uField_cmdWord, zField_cmdWord, aField_cmdWord, h]

/-- A packet has at most two data words (R130). -/
theorem exists_encodeData_prefix (i : Instr) : ∃ d0 d1, encodeData i <+: [d0, d1] := by
  cases i <;> simp [encodeData]

/-- A legal command word is legal whatever its data words are. -/
theorem exists_decodeCmd_ok {w d0 d1 : Word} {i : Instr} (h : decodeCmd w d0 d1 = .ok i) (e0 e1 : Word) :
    ∃ j, decodeCmd w e0 e1 = .ok j := by
  cases he : decodeCmd w e0 e1 with
  | ok j => exact ⟨j, rfl⟩
  | error r =>
    rw [decodeCmd_error_iff, ← decodeCmd_error_iff w d0 d1, h] at he
    cases he

end Sys2Proof

namespace Sys2Proof.Machine

@[simp] theorem Dec.store_need (d : Dec) (w : Word) : (d.store w).need = d.need - 1 := by
  unfold Dec.store
  split <;> rfl

@[simp] theorem Dec.store_cmd (d : Dec) (w : Word) : (d.store w).cmd = d.cmd := by
  unfold Dec.store
  split <;> rfl

@[simp] theorem Dec.store_src (d : Dec) (w : Word) : (d.store w).src = d.src := by
  unfold Dec.store
  split <;> rfl

/-- The first data word of a packet goes to `data[0]`. -/
theorem Dec.store_first {d : Dec} (h : dataWords d.cmd ≤ d.need) (w : Word) :
    d.store w = { d with data0 := w, need := d.need - 1 } := if_pos h

/-- The second data word of a packet goes to `data[1]`. -/
theorem Dec.store_second {d : Dec} (h : d.need < dataWords d.cmd) (w : Word) :
    d.store w = { d with data1 := w, need := d.need - 1 } := if_neg (by omega)

theorem Dec.finish_of_ok {w d0 d1 : Word} {i : Instr} (d : Dec) (h : decodeCmd w d0 d1 = .ok i) :
    d.finish w d0 d1 = .run i d := by
  rw [Dec.finish, h]

theorem fetch_of_collecting {d d' : Dec} {src : Nat} {w : Word} (h : takeWord d src w = .collecting d')
    (rest : List Input) : fetch d (.word src w :: rest) = fetch d' rest := by
  rw [fetch, h]

theorem fetch_of_run {d d' : Dec} {src : Nat} {w : Word} {i : Instr} (h : takeWord d src w = .run i d')
    (rest : List Input) : fetch d (.word src w :: rest) = .command i d' rest := by
  rw [fetch, h]

/-! ### One word -/

/-- The decoder that has just stored a command word. -/
def Dec.begin (d : Dec) (src : Nat) (w : Word) : Dec := { d with cmd := w, need := dataWords w, src := src }

theorem takeWord_encodeCmd_run {d : Dec} (hd : d.need = 0) (h : Nat) {i : Instr} (hi : encodeData i = []) :
    takeWord d h (encodeCmd i) = .run i d := by
  rw [takeWord, if_pos hd, decodeCmd_encodeCmd (by simp [hi])]
  exact if_pos (by rw [dataWords_encodeCmd, hi, List.length_nil])

theorem takeWord_encodeCmd_collecting {d : Dec} (hd : d.need = 0) (h : Nat) {i : Instr} (hi : encodeData i ≠ []) :
    takeWord d h (encodeCmd i) = .collecting (d.begin h (encodeCmd i)) := by
  obtain ⟨d0, d1, hp⟩ := exists_encodeData_prefix i
  obtain ⟨j, hj⟩ := exists_decodeCmd_ok (decodeCmd_encodeCmd hp) 0 0
  rw [takeWord, if_pos hd, hj]
  exact if_neg (by rwa [dataWords_encodeCmd, List.length_eq_zero_iff])

/-- A data word that is not the packet's last is stored. -/
theorem takeWord_dataWord {d : Dec} (hd : 1 < d.need) (w : Word) : takeWord d d.src w = .collecting (d.store w) := by
  rw [takeWord, if_neg (by omega), if_neg (by simp)]
  exact if_neg (by rw [Dec.store_need]; omega)

/-- The last data word completes the packet. -/
theorem takeWord_lastWord {d : Dec} (hd : d.need = 1) {w : Word} {i : Instr}
    (hi : decodeCmd d.cmd (d.store w).data0 (d.store w).data1 = .ok i) : takeWord d d.src w = .run i (d.store w) := by
  rw [takeWord, if_neg (by omega), if_neg (by simp)]
  exact (if_pos (by rw [Dec.store_need]; omega)).trans (Dec.finish_of_ok _ (by rwa [Dec.store_cmd]))

/-! ### The words of a packet -/

/-- Fewer data words than are needed complete nothing. -/
theorem fetch_dataWords {d : Dec} {ws : List Word} (hd : ws.length < d.need) :
    ∃ d', fetch d (packetInputs d.src ws) = .idle d' := by
  induction ws generalizing d with
  | nil => exact ⟨d, rfl⟩
  | cons w ws ih =>
    rw [List.length_cons] at hd
    obtain ⟨d', h⟩ := ih (d := d.store w) (by rw [Dec.store_need]; omega)
    rw [Dec.store_src] at h
    exact ⟨d', (fetch_of_collecting (takeWord_dataWord (by omega) w) _).trans h⟩

/-- A packet that is cut before its last word completes nothing. -/
theorem fetch_packet_prefix {d : Dec} (hd : d.need = 0) (h : Nat) {i : Instr} {ws1 ws2 : List Word}
    (he : encode i = ws1 ++ ws2) (hne : ws2 ≠ []) : ∃ d', fetch d (packetInputs h ws1) = .idle d' := by
  cases ws1 with
  | nil => exact ⟨d, rfl⟩
  | cons w ws =>
    obtain ⟨rfl, hdata⟩ : encodeCmd i = w ∧ encodeData i = ws ++ ws2 := by simpa [encode] using he
    have hlen : ws.length < dataWords (encodeCmd i) := by
      rw [dataWords_encodeCmd, hdata, List.length_append]
      exact Nat.lt_add_of_pos_right (List.length_pos_of_ne_nil hne)
    obtain ⟨d', h'⟩ := fetch_dataWords (d := d.begin h (encodeCmd i)) hlen
    exact ⟨d', (fetch_of_collecting (takeWord_encodeCmd_collecting hd h (by simp [hdata, hne])) _).trans h'⟩

theorem fetch_oneDataWord {b : Dec} (hn : b.need = 1) (hw : dataWords b.cmd = 1) {x : Word} {i : Instr}
    (hi : decodeCmd b.cmd x b.data1 = .ok i) (rest : List Input) :
    fetch b (.word b.src x :: rest) = .command i (b.store x) rest := by
  have hx := Dec.store_first (show dataWords b.cmd ≤ b.need by omega) x
  exact fetch_of_run (takeWord_lastWord hn (by rwa [hx])) rest

theorem fetch_twoDataWords {b : Dec} (hn : b.need = 2) (hw : dataWords b.cmd = 2) {x y : Word} {i : Instr}
    (hi : decodeCmd b.cmd x y = .ok i) (rest : List Input) :
    fetch b (.word b.src x :: .word b.src y :: rest) = .command i ((b.store x).store y) rest := by
  have hx := Dec.store_first (show dataWords b.cmd ≤ b.need by omega) x
  have hn' : (b.store x).need = 1 := by rw [Dec.store_need, hn]
  have hy := Dec.store_second (d := b.store x) (by rw [Dec.store_cmd]; omega) y
  have hlast : takeWord (b.store x) (b.store x).src y = .run i ((b.store x).store y) :=
    takeWord_lastWord hn' (by rwa [hy, hx])
  rw [Dec.store_src] at hlast
  exact (fetch_of_collecting (takeWord_dataWord (by omega) x) _).trans (fetch_of_run hlast rest)

/-- The packet of a command runs it. -/
theorem fetch_packet {d : Dec} (hd : d.need = 0) (h : Nat) (i : Instr) (rest : List Input) :
    ∃ d', d'.need = 0 ∧ fetch d (packetInputs h (encode i) ++ rest) = .command i d' rest := by
  have hn := dataWords_encodeCmd i
  have hbegin (hi : encodeData i ≠ []) := fetch_of_collecting (takeWord_encodeCmd_collecting hd h hi)
  let b := d.begin h (encodeCmd i)
  rw [encode]
  match hi : encodeData i with
  | [] => exact ⟨d, hd, fetch_of_run (takeWord_encodeCmd_run hd h hi) _⟩
  | [x] =>
    rw [hi, List.length_singleton] at hn
    have hx := fetch_oneDataWord (b := b) (x := x) hn hn (decodeCmd_encodeCmd (by simp [hi])) rest
    exact ⟨b.store x, by simp [show b.need = 1 from hn], (hbegin (by simp [hi]) _).trans hx⟩
  | [x, y] =>
    rw [hi, List.length_cons, List.length_singleton] at hn
    have hxy := fetch_twoDataWords (b := b) (x := x) (y := y) hn hn (decodeCmd_encodeCmd (by simp [hi])) rest
    exact ⟨(b.store x).store y, by simp [show b.need = 2 from hn], (hbegin (by simp [hi]) _).trans hxy⟩
  | x :: y :: z :: ws =>
    obtain ⟨d0, d1, hp⟩ := exists_encodeData_prefix i
    simp [hi] at hp

/-- A step depends on the decoder and the inputs through the fetch alone. -/
theorem step_congr_fetch (s : State) {d d' : Dec} {l l' : List Input} (h : fetch d l = fetch d' l') :
    step { s with dec := d, inputs := l } = step { s with dec := d', inputs := l' } := by
  simp only [step, h]
  rfl

/-- Settles O6: the fetch takes the whole packet and no more. -/
theorem stepRunsTheDecodedCommand : Obligations.StepRunsTheDecodedCommand := by
  unfold Obligations.StepRunsTheDecodedCommand
  intro s i h rest hd hin
  obtain ⟨d, hd', hf⟩ := fetch_packet hd h i rest
  exact ⟨d, hd', by rw [step, hin, hf]⟩

/-- Settles O7: the first part of the packet leaves the core waiting, and the fetch goes on from there. -/
theorem splitPacketRunsAsWhole : Obligations.SplitPacketRunsAsWhole := by
  unfold Obligations.SplitPacketRunsAsWhole
  intro s i h ws1 ws2 rest hd he hne
  obtain ⟨d, hf⟩ := fetch_packet_prefix hd h he hne
  refine ⟨s.wait d, by rw [step, hf]; rfl, readReg_wait s d, rfl, ?_⟩
  have hwhole : packetInputs h (encode i) ++ rest = packetInputs h ws1 ++ (packetInputs h ws2 ++ rest) := by
    rw [he, packetInputs, List.map_append, List.append_assoc]
    rfl
  rw [hwhole]
  exact step_congr_fetch s (fetch_append hf _).symm

end Sys2Proof.Machine
end

section
/-! SUPPORT. The invariant of status, gain and decoder (R52, R58, R61, R341), operation by operation. -/

namespace Sys2Proof.Machine

/-! ### The decoder -/

/-- What the invariant needs of the decoder when the fetch ends: while it waits it collects as R58 says, once a packet or an
illegal word came it needs nothing, and an illegal word has cause 1 or 2. -/
def FetchedInv : Fetched → Prop
  | .idle d => DecInv d
  | .command _ d _ => d.need = 0
  | .illegal r _ d _ => d.need = 0 ∧ r ≠ .truncated
  | .reset _ | .interleaved => True

/-- The same of what one word makes of the decoder. -/
def TakenInv : Taken → Prop
  | .collecting d => DecInv d
  | .run _ d => d.need = 0
  | .illegal r _ d => d.need = 0 ∧ r ≠ .truncated
  | .interleaved => True

theorem decInv_of_need {d : Dec} (h : d.need = 0) : DecInv d := fun hne => absurd h hne

theorem decInv_store {d : Dec} (h : DecInv d) (w : Word) : DecInv (d.store w) := by
  intro hne
  rw [Dec.store_need] at hne
  obtain ⟨hok, hle⟩ := h (by omega)
  rw [Dec.store_need, Dec.store_cmd]
  exact ⟨hok, by omega⟩

theorem takenInv_finish {d : Dec} (h : d.need = 0) (w d0 d1 : Word) : TakenInv (d.finish w d0 d1) := by
  unfold Dec.finish
  cases he : decodeCmd w d0 d1 with
  | ok i => exact h
  | error r => exact ⟨h, fun hr => decodeCmd_ne_truncated w d0 d1 (hr ▸ he)⟩

theorem takenInv_takeWord {d : Dec} (h : DecInv d) (src : Nat) (w : Word) : TakenInv (takeWord d src w) := by
  unfold takeWord
  split
  · next hd =>
    cases he : decodeCmd w 0 0 with
    | error r => exact ⟨hd, fun hr => decodeCmd_ne_truncated w 0 0 (hr ▸ he)⟩
    | ok i =>
      dsimp only
      split
      · exact hd
      · exact fun _ => ⟨⟨i, he⟩, le_rfl⟩
  · split
    · trivial
    · dsimp only
      split
      · next hs => exact takenInv_finish hs ..
      · exact decInv_store h w

theorem fetchedInv_fetch {d : Dec} (h : DecInv d) (l : List Input) : FetchedInv (fetch d l) := by
  induction l generalizing d with
  | nil => exact h
  | cons e l ih =>
    cases e with
    | rst => trivial
    | word src w =>
      have ht := takenInv_takeWord h src w
      rw [fetch]
      cases he : takeWord d src w <;> rw [he] at ht
      case collecting d' => exact ih ht
      case run | illegal | interleaved => exact ht

/-! ### The report -/

theorem statusInv_recordIllegal {g : Globals} (h : StatusInv g) {cause : BitVec 4} (hc : cause ≠ 0)
    (hle : cause.toNat ≤ 4) (w : Word) : StatusInv (recordIllegal cause w g) := by
  unfold recordIllegal
  split
  · exact h
  · exact ⟨hle, iff_of_false hc (by simp), by simp⟩

theorem statusInv_clearReport {g : Globals} (h : StatusInv g) (w : Word) : StatusInv (clearReport w g) := by
  unfold clearReport
  split
  · exact ⟨Nat.zero_le 4, iff_of_true rfl rfl, fun _ => rfl⟩
  · exact h

/-! ### The gain smoother -/

/-- R61 of a ramp that is over, and of one that runs. -/
theorem gainInv_of_arrived {g : Globals} (hc : g.gainCount = 0) (h : g.gainCur = g.gainTarget) : GainInv g :=
  ⟨by rw [hc]; decide, fun _ => h⟩

theorem gainInv_of_pos {g : Globals} (h : 0 < g.gainCount.toInt) : GainInv g :=
  ⟨h.le, fun h0 => absurd h (by rw [h0]; decide)⟩

theorem nonPositive_eq_false_iff (n : Word) : nonPositive n = false ↔ 0 < n.toInt := by
  simp [nonPositive]

theorem gainInv_gainSet {g : Globals} (h : GainInv g) (k : Nat) (x : Word) : GainInv (gainSet k x g) := by
  unfold gainSet
  split_ifs with hx hn
  · exact h
  · exact gainInv_of_arrived rfl rfl
  · exact gainInv_of_pos ((nonPositive_eq_false_iff g.gainSteps).mp (by simpa using hn))

theorem toInt_sub_one_of_pos {n : Word} (h : 0 < n.toInt) : (n - 1).toInt = n.toInt - 1 := by
  have hn := n.isLt
  rw [BitVec.toInt_eq_toNat_cond] at *
  rw [BitVec.toInt_eq_toNat_cond]
  bv_omega

/-- The last step of a ramp lands on the target; every step before it leaves a step to go (R312). -/
theorem gainInv_gainNext {g : Globals} (h : GainInv g) (k : Nat) : GainInv (gainNext k g) := by
  unfold gainNext
  cases hn : nonPositive g.gainCount with
  | true => exact h
  | false =>
    have hpos := (nonPositive_eq_false_iff _).mp hn
    have hsub := toInt_sub_one_of_pos hpos
    rcases eq_or_ne (g.gainCount - 1) 0 with h0 | h0
    · exact gainInv_of_arrived h0 (if_neg (by rw [h0]; decide))
    · have hne : (g.gainCount - 1).toInt ≠ 0 := fun e => h0 (BitVec.eq_of_toInt_eq e)
      exact gainInv_of_pos (show 0 < (g.gainCount - 1).toInt by omega)

/-! ### The global registers -/

/-- The part of the invariant that a command can touch. -/
def GlobalsInv (g : Globals) : Prop := StatusInv g ∧ GainInv g

/-- The registers that this part speaks of are unchanged. -/
def SameInvRegs (g g' : Globals) : Prop :=
  g'.ill = g.ill ∧ g'.cause = g.cause ∧ g'.illWord = g.illWord ∧
    g'.gainCur = g.gainCur ∧ g'.gainTarget = g.gainTarget ∧ g'.gainCount = g.gainCount

theorem SameInvRegs.globalsInv {g g' : Globals} (hs : SameInvRegs g g') (h : GlobalsInv g) : GlobalsInv g' := by
  obtain ⟨hill, hcause, hword, hcur, htarget, hcount⟩ := hs
  rwa [GlobalsInv, StatusInv, GainInv, hill, hcause, hword, hcur, htarget, hcount]

theorem sameInvRegs_noiseNext (k : Nat) (m : NoiseMap) (g : Globals) : SameInvRegs g (noiseNext k m g) := by
  unfold noiseNext
  exact ⟨rfl, rfl, rfl, rfl, rfl, rfl⟩

theorem globalsInv_recordIllegal {g : Globals} (h : GlobalsInv g) {cause : BitVec 4} (hc : cause ≠ 0)
    (hle : cause.toNat ≤ 4) (w : Word) : GlobalsInv (recordIllegal cause w g) := by
  refine ⟨statusInv_recordIllegal h.1 hc hle w, ?_⟩
  unfold recordIllegal
  split <;> exact h.2

/-- No register of the gain's ramp can be written, and `STATUS` is the one way to the report. -/
theorem globalsInv_writeGlobal {g : Globals} (h : GlobalsInv g) (w : Word) (r : GReg) :
    GlobalsInv (writeGlobal w g r) := by
  cases r with
  | status =>
    refine ⟨statusInv_clearReport h.1 w, ?_⟩
    change GainInv (clearReport w g)
    unfold clearReport
    split <;> exact h.2
  | _ => exact h

theorem globalsInv_writeReg {s : State} (h : GlobalsInv s.g) (w : Word) (r : Reg) : GlobalsInv (writeReg s w r).g := by
  cases r with
  | glob r => exact globalsInv_writeGlobal h w r
  | _ => exact h

theorem globalsInv_regWrite {s : State} (h : GlobalsInv s.g) (a : Addr) (w : Word) :
    GlobalsInv (regWrite a w s).g := by
  rcases regWrite_cases a w s with ⟨-, e⟩ | ⟨r, -, -, e⟩ | ⟨r, -, -, e⟩ <;> rw [e]
  · rw [raiseIllegal_g]
    exact globalsInv_recordIllegal h (by decide) (by decide) _
  · rw [raiseIllegal_g]
    exact globalsInv_recordIllegal h (by decide) (by decide) _
  · exact globalsInv_writeReg h w r

theorem globalsInv_regRead {s : State} (h : GlobalsInv s.g) (a : Addr) : GlobalsInv (regRead a s).g := by
  rcases regRead_cases a s with ⟨-, e⟩ | ⟨r, -, e⟩ <;> rw [e]
  · rw [raiseIllegal_g]
    exact globalsInv_recordIllegal h (by decide) (by decide) _
  · exact h

theorem globalsInv_gainSet {g : Globals} (h : GlobalsInv g) (k : Nat) (x : Word) : GlobalsInv (gainSet k x g) := by
  refine ⟨?_, gainInv_gainSet h.2 k x⟩
  unfold gainSet
  split_ifs <;> exact h.1

theorem globalsInv_gainNext {g : Globals} (h : GlobalsInv g) (k : Nat) : GlobalsInv (gainNext k g) := by
  refine ⟨?_, gainInv_gainNext h.2 k⟩
  unfold gainNext
  split <;> exact h.1

theorem globalsInv_lfoTick {s : State} (h : GlobalsInv s.g) (k : Nat) : GlobalsInv (lfoTick k s).g := by
  unfold lfoTick
  dsimp only
  split <;> exact h

theorem globalsInv_monoFold {g : Globals} (h : GlobalsInv g) (k : Nat) (l r : Word) :
    GlobalsInv (monoFold k l r g) := by
  unfold monoFold
  split <;> exact h

theorem globalsInv_sampleOut {g : Globals} (h : GlobalsInv g) (k : Nat) (l r : Word) :
    GlobalsInv (sampleOut k l r g) :=
  globalsInv_monoFold (globalsInv_gainNext (g := { g with mixL := l, mixR := r }) h k) k _ _

theorem globalsInv_sampleStep {s : State} (h : GlobalsInv s.g) (k : Nat) : GlobalsInv (sampleStep k s).g := by
  unfold sampleStep
  rw [State.updGlobals_g, State.mapVoices_g, State.updGlobals_g]
  exact globalsInv_sampleOut ((sameInvRegs_noiseNext ..).globalsInv (globalsInv_lfoTick h k)) k _ _

/-- R314: the ramp is over, at the target. -/
theorem globalsInv_gainReset {g : Globals} (h : StatusInv g) : GlobalsInv (gainReset g) :=
  ⟨h, gainInv_of_arrived rfl rfl⟩

/-! ### The commands and the step -/

@[simp] theorem writeReg_dec (s : State) (w : Word) (r : Reg) : (writeReg s w r).dec = s.dec :=
  (samePorts_writeReg s w r).1

@[simp] theorem regWrite_dec (a : Addr) (w : Word) (s : State) : (regWrite a w s).dec = s.dec := by
  rcases regWrite_cases a w s with ⟨-, e⟩ | ⟨r, -, -, e⟩ | ⟨r, -, -, e⟩ <;> simp [e]

@[simp] theorem regRead_dec (a : Addr) (s : State) : (regRead a s).dec = s.dec := by
  rcases regRead_cases a s with ⟨-, e⟩ | ⟨r, -, e⟩ <;> simp [e]

@[simp] theorem lfoTick_dec (k : Nat) (s : State) : (lfoTick k s).dec = s.dec := by
  unfold lfoTick
  dsimp only
  split <;> rfl

@[simp] theorem sampleStep_dec (k : Nat) (s : State) : (sampleStep k s).dec = s.dec := by
  unfold sampleStep
  rw [State.updGlobals_dec, State.mapVoices_dec, State.updGlobals_dec, lfoTick_dec]

/-- Every command answers a next state; it leaves the decoder alone and keeps the invariant. -/
theorem exec_keeps_inv (i : Instr) (s : State) :
    ∃ t, exec i s = .next t ∧ t.dec = s.dec ∧ (GlobalsInv s.g → GlobalsInv t.g) := by
  cases i with
  | regWr a w => exact ⟨_, rfl, regWrite_dec a w s, fun h => globalsInv_regWrite h a w⟩
  | regRd a => exact ⟨_, rfl, regRead_dec a s, fun h => globalsInv_regRead h a⟩
  | lfoTick => exact ⟨_, rfl, lfoTick_dec _ s, fun h => globalsInv_lfoTick h _⟩
  | sample => exact ⟨_, rfl, sampleStep_dec _ s, fun h => globalsInv_sampleStep h _⟩
  | coreReset => exact ⟨_, rfl, rfl, fun h => globalsInv_gainReset h.1⟩
  | gainReset => exact ⟨_, rfl, rfl, fun h => globalsInv_gainReset h.1⟩
  | gainSet x => exact ⟨_, rfl, rfl, fun h => globalsInv_gainSet h _ x⟩
  | gainNext => exact ⟨_, rfl, rfl, fun h => globalsInv_gainNext h _⟩
  | noiseNext =>
    exact ⟨s.updGlobals _, rfl, State.updGlobals_dec s _, (sameInvRegs_noiseNext s.freeDraws s.noiseMap s.g).globalsInv⟩
  | _ => exact ⟨_, rfl, rfl, fun h => h⟩

theorem inv_iff (s : State) : Inv s ↔ GlobalsInv s.g ∧ DecInv s.dec := and_assoc.symm

theorem Reject.cause_of_ne_truncated {r : Reject} (h : r ≠ .truncated) : r.cause ≠ 0 ∧ r.cause.toNat ≤ 4 := by
  cases r
  case truncated => exact absurd rfl h
  case undefinedOp | badField => decide

/-- Settles O55: no report, no ramp, no packet begun. -/
theorem resetMeetsTheInvariant : Obligations.ResetMeetsTheInvariant := by
  unfold Obligations.ResetMeetsTheInvariant
  have hstatus : StatusInv Globals.reset := ⟨Nat.zero_le 4, iff_of_true rfl rfl, fun _ => rfl⟩
  exact ⟨hstatus, gainInv_of_arrived rfl rfl, decInv_of_need rfl⟩

/-- Settles O54: the fetch keeps the decoder's part, and what the core then does keeps the part of the globals. -/
theorem stepKeepsTheInvariant : Obligations.StepKeepsTheInvariant := by
  unfold Obligations.StepKeepsTheInvariant
  intro s t hs h
  rw [inv_iff] at hs ⊢
  obtain ⟨hg, hd⟩ := hs
  have hf := fetchedInv_fetch hd s.inputs
  rcases step_cases s with ⟨d, e, hst⟩ | ⟨rest, -, hst⟩ | ⟨i, d, rest, e, hst⟩ | ⟨r, w, d, rest, e, hst⟩ | ⟨-, hst⟩
  · rw [e] at hf
    obtain rfl : s.wait d = t := by simpa [hst] using h
    exact ⟨hg, hf⟩
  · obtain rfl : s.powerOn rest = t := by simpa [hst] using h
    exact (inv_iff _).mp resetMeetsTheInvariant
  · rw [e] at hf
    obtain ⟨t', ht', hdec, hinv⟩ := exec_keeps_inv i (s.accept d rest)
    obtain rfl : t' = t := by simpa [hst, ht'] using h
    exact ⟨hinv hg, by rw [hdec]; exact decInv_of_need hf⟩
  · rw [e] at hf
    obtain ⟨hneed, hr⟩ := hf
    obtain ⟨hc, hle⟩ := Reject.cause_of_ne_truncated hr
    obtain rfl : raiseIllegal r.cause w (s.accept d rest) = t := by simpa [hst] using h
    rw [raiseIllegal_g, raiseIllegal_dec]
    exact ⟨globalsInv_recordIllegal hg hc hle w, decInv_of_need hneed⟩
  · simp [hst] at h

end Sys2Proof.Machine
end

section
/-! SUPPORT. The register map: the runs of `regAt` (R45 to R50) against the address columns, and the fields and access of
the registers. -/

namespace Sys2Proof.Machine

/-! ### Runs of registers -/

/-- A run whose registers have consecutive addresses from its base on holds at an address the register of that address. -/
theorem addr_of_inRun {α : Type} {base n : Nat} {regs : List α} {r : α} (addr : α → Nat)
    (h : regs.map addr = List.range' base regs.length) (hr : inRun base regs n = some r) : addr r = n := by
  unfold inRun at hr
  split at hr
  · cases hr
  · obtain ⟨hlt, rfl⟩ := List.getElem?_eq_some_iff.mp hr
    have hget : some (addr regs[n - base]) = some (base + (n - base)) := by
      simpa [hlt] using congrArg (·[n - base]?) h
    have := Option.some.inj hget
    omega

theorem inRun_eq_none_iff {α : Type} {base n : Nat} {regs : List α} :
    inRun base regs n = none ↔ n < base ∨ base + regs.length ≤ n := by
  unfold inRun
  split
  · simp [*]
  · rw [List.getElem?_eq_none_iff]
    omega

/-! ### The global registers (R45) -/

theorem GReg.addr_lt (r : GReg) : r.addr < 0x40 := by cases r <;> decide

theorem globalAt_eq_some_iff {n : Nat} {r : GReg} : globalAt n = some r ↔ r.addr = n := by
  constructor
  · intro h
    unfold globalAt at h
    split_ifs at h <;> exact addr_of_inRun GReg.addr rfl h
  · rintro rfl
    cases r <;> rfl

theorem toNat_addr_glob (r : GReg) : (Reg.glob r).addr.toNat = r.addr := by
  have := r.addr_lt
  rw [Reg.addr, BitVec.toNat_ofNat]
  omega

/-! ### A voice's window (R46) -/

/-- The offset of a register in its voice's window; a global has its address. -/
def Reg.windowOffset : Reg → Nat
  | .glob r => r.addr
  | .voice _ r => r.offset
  | .filt _ r => 0x10 + r.offset
  | .osc _ u r => 0x20 + 0x10 * u.val + r.offset
  | .env _ u r => 0x40 + 0x10 * u.val + r.offset

theorem VReg.offset_lt (r : VReg) : r.offset < 0x10 := by cases r <;> decide

theorem FReg.offset_lt (r : FReg) : r.offset < 0x10 := by cases r <;> decide

theorem OReg.offset_lt (r : OReg) : r.offset < 0x10 := by cases r <;> decide

theorem EReg.offset_lt (r : EReg) : r.offset < 0x10 := by cases r <;> decide

theorem Reg.windowOffset_lt (r : Reg) : r.windowOffset < 0x60 := by
  cases r <;> rw [Reg.windowOffset]
  case glob r => exact r.addr_lt.trans (by decide)
  case voice v r => exact r.offset_lt.trans (by decide)
  case filt v r | osc v u r | env v u r =>
    have := r.offset_lt
    omega

theorem Reg.toNat_addr_of_voice {r : Reg} {v : Fin 8} (h : r.voice? = some v) :
    r.addr.toNat = voiceBase v + r.windowOffset := by
  have hlt := r.windowOffset_lt
  have haddr : r.addr = BitVec.ofNat 16 (voiceBase v + r.windowOffset) := by
    cases r <;> cases h <;> simp [Reg.addr, Reg.windowOffset, add_assoc]
  rw [haddr, BitVec.toNat_ofNat, voiceBase]
  omega

theorem voiceRegAt_eq_some_iff {v : Fin 8} {off : Nat} {r : Reg} :
    voiceRegAt v off = some r ↔ r.voice? = some v ∧ r.windowOffset = off := by
  constructor
  · intro h
    unfold voiceRegAt at h
    split_ifs at h <;> obtain ⟨q, hq, rfl⟩ := Option.map_eq_some_iff.mp h
    · exact ⟨rfl, addr_of_inRun VReg.offset rfl hq⟩
    · exact ⟨rfl, addr_of_inRun (0x10 + FReg.offset ·) rfl hq⟩
    · exact ⟨rfl, addr_of_inRun (0x20 + OReg.offset ·) rfl hq⟩
    · exact ⟨rfl, addr_of_inRun (0x30 + OReg.offset ·) rfl hq⟩
    · exact ⟨rfl, addr_of_inRun (0x40 + EReg.offset ·) rfl hq⟩
    · exact ⟨rfl, addr_of_inRun (0x50 + EReg.offset ·) rfl hq⟩
  · rintro ⟨hv, rfl⟩
    cases r with
    | glob r => cases hv
    | voice w r => cases hv; cases r <;> rfl
    | osc w u r => cases hv; fin_cases u <;> cases r <;> rfl
    | env w u r => cases hv; fin_cases u <;> cases r <;> rfl
    | filt w r => cases hv; cases r <;> rfl

/-! ### The whole map -/

/-- The voice whose window an address lies in, if it lies in one. -/
def windowVoice (n : Nat) : Fin 8 := ⟨(n - 0x100) / 0x80 % 8, Nat.mod_lt _ (by decide)⟩

theorem regAt_eq (a : Addr) : regAt a =
    if a.toNat < 0x100 then (globalAt a.toNat).map .glob
    else if a.toNat < 0x500 then voiceRegAt (windowVoice a.toNat) ((a.toNat - 0x100) % 0x80) else none := rfl

theorem addr_of_regAt {a : Addr} {r : Reg} (h : regAt a = some r) : r.addr = a := by
  apply BitVec.eq_of_toNat_eq
  rw [regAt_eq] at h
  split_ifs at h
  · obtain ⟨q, hq, rfl⟩ := Option.map_eq_some_iff.mp h
    rw [toNat_addr_glob, globalAt_eq_some_iff.mp hq]
  · obtain ⟨hv, hoff⟩ := voiceRegAt_eq_some_iff.mp h
    rw [Reg.toNat_addr_of_voice hv, hoff, voiceBase, windowVoice]
    dsimp only
    omega

theorem regAt_addr (r : Reg) : regAt r.addr = some r := by
  rw [regAt_eq]
  cases hv : r.voice? with
  | none =>
    cases r with
    | glob r =>
      have := r.addr_lt
      rw [toNat_addr_glob, if_pos (by omega), globalAt_eq_some_iff.mpr rfl, Option.map_some]
    | _ => cases hv
  | some v =>
    have hlt := r.windowOffset_lt
    have hw : windowVoice (voiceBase v + r.windowOffset) = v := by
      apply Fin.ext
      simp only [windowVoice, voiceBase]
      omega
    rw [Reg.toNat_addr_of_voice hv, hw, voiceBase, if_neg (by omega), if_pos (by omega), voiceRegAt_eq_some_iff]
    exact ⟨hv, by omega⟩

/-- Settles O15: each run holds the registers of its addresses, in order. -/
theorem registerMapIsOneToOne : Obligations.RegisterMapIsOneToOne := by
  unfold Obligations.RegisterMapIsOneToOne
  exact fun a r => ⟨addr_of_regAt, fun h => h ▸ regAt_addr r⟩

theorem globalAt_eq_none_iff {n : Nat} : globalAt n = none ↔
    (0x08 ≤ n ∧ n ≤ 0x0F) ∨ n = 0x1F ∨ (0x26 ≤ n ∧ n ≤ 0x2F) ∨ (0x36 ≤ n ∧ n ≤ 0x37) ∨ 0x3C ≤ n := by
  unfold globalAt
  split_ifs <;> rw [inRun_eq_none_iff] <;>
    simp only [runMain, runLfo, runParam, runGain, runOut, List.length_cons, List.length_nil] <;> omega

theorem voiceRegAt_eq_none_iff {v : Fin 8} {off : Nat} : voiceRegAt v off = none ↔
    (0x0E ≤ off ∧ off ≤ 0x0F) ∨ (0x18 ≤ off ∧ off ≤ 0x1F) ∨ (0x2B ≤ off ∧ off ≤ 0x2F) ∨
      (0x3B ≤ off ∧ off ≤ 0x3F) ∨ (0x48 ≤ off ∧ off ≤ 0x4F) ∨ 0x58 ≤ off := by
  unfold voiceRegAt
  split_ifs <;> rw [Option.map_eq_none_iff, inRun_eq_none_iff] <;>
    simp only [runVoice, runFilter, runOsc, runEnv, List.length_cons, List.length_nil] <;> omega

/-- Settles O16: the gaps are where the runs end. -/
theorem unmappedAddressesAreTheListedOnes : Obligations.UnmappedAddressesAreTheListedOnes := by
  unfold Obligations.UnmappedAddressesAreTheListedOnes
  intro a n off
  have ha := a.isLt
  rw [regAt_eq]
  split_ifs
  · rw [Option.map_eq_none_iff, globalAt_eq_none_iff]
    omega
  · rw [voiceRegAt_eq_none_iff]
    omega
  · simp only [true_iff]
    omega

/-! ### Fields and access -/

theorem toNat_append_eq_add {m n : Nat} (x : BitVec m) (y : BitVec n) :
    (x ++ y).toNat = x.toNat * 2 ^ n + y.toNat := by
  rw [BitVec.toNat_append, ← Nat.shiftLeft_add_eq_or_of_lt y.isLt, Nat.shiftLeft_eq]

theorem toNat_ofBool_eq_ite (b : Bool) : (BitVec.ofBool b).toNat = if b then 1 else 0 := by cases b <;> rfl

theorem toNat_statusWord (g : Globals) : (statusWord g).toNat = g.cause.toNat * 2 ^ 4 + if g.ill then 1 else 0 := by
  simp only [statusWord, toNat_append_eq_add, toNat_ofBool_eq_ite, BitVec.toNat_ofNat]
  omega

theorem toNat_ctrlWord (g : Globals) : (ctrlWord g).toNat = if g.mono then 1 else 0 := by
  simp only [ctrlWord, toNat_append_eq_add, toNat_ofBool_eq_ite, BitVec.toNat_ofNat]
  omega

theorem toNat_envStatusWord (e : Envelope) : (envStatusWord e).toNat =
    (if envInAttack e then 2 else 0) + if envActive e then 1 else 0 := by
  simp only [envStatusWord, toNat_append_eq_add, toNat_ofBool_eq_ite, BitVec.toNat_ofNat]
  split <;> omega

/-- Settles O17: the words of R51 to R54 are their fields put side by side. -/
theorem fieldRegistersReadTheirFields : Obligations.FieldRegistersReadTheirFields := by
  unfold Obligations.FieldRegistersReadTheirFields
  exact fun s v u => ⟨rfl, toNat_statusWord s.g, toNat_ctrlWord s.g, toNat_envStatusWord ((s.voice v).env u)⟩

/-- Settles O20: one case for each table. -/
theorem readOnlyRegistersAreTheListedOnes : Obligations.ReadOnlyRegistersAreTheListedOnes := by
  unfold Obligations.ReadOnlyRegistersAreTheListedOnes
  intro r
  cases r with
  | glob r => cases r <;> simp [Reg.readOnly, GReg.readOnly]
  | voice v r => simp [Reg.readOnly, ← and_or_left]
  | osc v u r => simp [Reg.readOnly]
  | env v u r => simp [Reg.readOnly]
  | filt v r => simp [Reg.readOnly]

end Sys2Proof.Machine
end

section
/-! SUPPORT. The envelope's step (R194) on levels and targets that are not negative: bounds on magnitudes, which rounding
keeps. -/

namespace Sys2Proof.Machine

/-! ### Rounding keeps a bound -/

theorem NearestEven.le_of_le_units {x : ℚ} {c d : Nat} (h : NearestEven x c) (hd : x ≤ units d) : c ≤ d := by
  by_contra! hlt
  have hu : (units d : ℚ) < units c := by exact_mod_cast units_strictMono hlt
  have := (h d).1
  rw [abs_of_nonpos (by linarith), abs_of_nonpos (by linarith)] at this
  linarith

/-- A result of at most a finite magnitude is read as a number of at most that magnitude. -/
theorem operand_roundFlush_le (neg : Bool) {p q c : Nat} (hq : 0 < q) (hc : c < 0x7F800000) (h : p ≤ units c * q) :
    ∃ d ≤ c, operand (roundFlush neg p q) = .fin neg (units d) := by
  have hm : magnitude (roundRat neg p q) ≤ c := by
    have hx : (p / q : ℚ) ≤ units c := by
      rw [div_le_iff₀ (by exact_mod_cast hq)]
      exact_mod_cast h
    have := (nearestEven_roundMagnitude p hq).le_of_le_units hx
    rw [magnitude_roundRat]
    omega
  have hfin : isFinite (roundRat neg p q) = true := (isFinite_iff _).mpr (by omega)
  have hflush := magnitude_flushSubnormal (roundRat neg p q)
  refine ⟨magnitude (flushSubnormal (roundRat neg p q)), by omega, ?_⟩
  rw [roundFlush, operand_flushSubnormal, operand_of_isFinite hfin, signBit_roundRat]

theorem isNaN_roundFlush (neg : Bool) (p q : Nat) : isNaN (roundFlush neg p q) = false := by
  rw [roundFlush, isNaN_flushSubnormal, isNaN_roundRat]

theorem signBit_roundFlush (neg : Bool) (p q : Nat) : signBit (roundFlush neg p q) = neg := by
  rw [roundFlush, signBit_flushSubnormal, signBit_roundRat]

theorem roundFlush_zero (neg : Bool) : roundFlush neg 0 1 = zeroOf neg := by
  rw [roundFlush, show roundRat neg 0 1 = zeroOf neg from roundRat_units neg (c := 0) (by decide), flushSubnormal_zeroOf]

/-! ### Comparisons with 0 and 1 -/

theorem orderKey_of_not_nan {a : Word} (h : isNaN a = false) :
    orderKey a = some (signedInt (signBit a) (magnitude (flushSubnormal a))) := by
  rw [← signBit_flushSubnormal]
  exact if_neg (by simp [h])

theorem signedInt_nonneg_iff (neg : Bool) (n : Nat) : 0 ≤ signedInt neg n ↔ (neg = true → n = 0) := by
  cases neg <;> simp [signedInt]

theorem signedInt_of_nonneg {neg : Bool} {n : Nat} (h : neg = true → n = 0) : signedInt neg n = n := by
  cases neg
  · rfl
  · simp [signedInt, h rfl]

theorem signedInt_not (neg : Bool) (n : Nat) : signedInt (!neg) n = -signedInt neg n := by
  cases neg <;> simp [signedInt]

theorem orderKey_zeroF : orderKey Config.zeroF = some 0 := by
  rw [orderKey_of_not_nan (by decide), flushSubnormal_of_not (by decide)]
  decide

theorem orderKey_oneF : orderKey Config.oneF = some 0x3F800000 := by
  rw [orderKey_of_not_nan (by decide), flushSubnormal_of_not (by decide)]
  decide

/-- "Not negative" admits both zeros. -/
theorem fge_zeroF_iff (a : Word) : fge a Config.zeroF = true ↔
    isNaN a = false ∧ (signBit a = true → magnitude (flushSubnormal a) = 0) := by
  cases h : isNaN a with
  | true => simp [fge, fle_nan_right h]
  | false =>
    rw [fge, fle_of_keys orderKey_zeroF (orderKey_of_not_nan h), decide_eq_true_eq, signedInt_nonneg_iff]
    exact (and_iff_right rfl).symm

/-! ### What operands are read as -/

/-- The operand is read as a number that is finite, not negative, and at most `units n`. -/
def ReadsWithin (n : Nat) (a : Word) : Prop := ∃ x c, operand a = .fin x (units c) ∧ c ≤ n ∧ (x = true → c = 0)

/-- The operand is read as a number that is finite and not below `-units n`. -/
def ReadsAtLeastNeg (n : Nat) (a : Word) : Prop :=
  ∃ x c, operand a = .fin x (units c) ∧ c < 0x7F800000 ∧ (x = true → c ≤ n)

theorem readsWithin_of_fge {a : Word} (hf : isFinite a = true) (h : fge a Config.zeroF = true) :
    ReadsWithin (magnitude (flushSubnormal a)) a :=
  ⟨_, _, operand_of_isFinite hf, le_rfl, ((fge_zeroF_iff a).mp h).2⟩

theorem readsWithin_of_between {a : Word} (h : between Config.zeroF a Config.oneF = true) :
    ReadsWithin 0x3F800000 a := by
  obtain ⟨hlo, hhi⟩ : fge a Config.zeroF = true ∧ fle a Config.oneF = true := (Bool.and_eq_true _ _).mp h
  obtain ⟨hn, hsign⟩ := (fge_zeroF_iff a).mp hlo
  have hle : magnitude (flushSubnormal a) ≤ 0x3F800000 := by
    rw [fle_of_keys (orderKey_of_not_nan hn) orderKey_oneF, decide_eq_true_eq, signedInt_of_nonneg hsign] at hhi
    exact_mod_cast hhi
  have hfin : isFinite a = true := by
    rw [← isFinite_flushSubnormal, isFinite_iff]
    omega
  exact ⟨_, _, operand_of_isFinite hfin, hle, hsign⟩

/-! ### The three operations of a step -/

section Step

variable {k : Nat} {a b : Word} {m n : Nat}

/-- A number in [-`units n`, `units m`], rounded with its sign, stays above the bound. -/
theorem readsAtLeastNeg_roundFlush {neg : Bool} {z : Int} (hm : m < 0x7F800000) (hn : n < 0x7F800000)
    (hlo : -(units n : Int) ≤ z) (hhi : z ≤ units m) (hneg : neg = true → z ≤ 0) (hpos : neg = false → 0 ≤ z) :
    ReadsAtLeastNeg n (roundFlush neg z.natAbs 1) := by
  cases neg with
  | false =>
    have := hpos rfl
    obtain ⟨d, hd, hop⟩ := operand_roundFlush_le false (p := z.natAbs) Nat.one_pos hm (by omega)
    exact ⟨_, d, hop, by omega, by simp⟩
  | true =>
    have := hneg rfl
    obtain ⟨d, hd, hop⟩ := operand_roundFlush_le true (p := z.natAbs) Nat.one_pos hn (by omega)
    exact ⟨_, d, hop, by omega, fun _ => hd⟩

/-- A difference of numbers that are not negative is not below the second one, negated. -/
theorem readsAtLeastNeg_fsub (hm : m < 0x7F800000) (hn : n < 0x7F800000) (ha : ReadsWithin m a)
    (hb : ReadsWithin n b) : ReadsAtLeastNeg n (fsub k a b) := by
  obtain ⟨x, c, ha, hc, hx⟩ := ha
  obtain ⟨y, d, hb, hd, hy⟩ := hb
  have hcm := units_strictMono.monotone hc
  have hdn := units_strictMono.monotone hd
  rw [fsub_fin ha hb, signedInt_not, signedInt_of_nonneg (by simpa using hx), signedInt_of_nonneg (by simpa using hy)]
  refine readsAtLeastNeg_roundFlush hm hn (by omega) (by omega) (fun h => ?_) fun h => ?_
  · split_ifs at h with h0
    · exact h0.le
    · exact (of_decide_eq_true h).le
  · split_ifs at h with h0
    · exact h0.ge
    · exact not_lt.mp (of_decide_eq_false h)

/-- A factor in [0, 1] keeps a number above such a bound. -/
theorem readsAtLeastNeg_fmul (ha : ReadsWithin 0x3F800000 a) (hb : ReadsAtLeastNeg n b) :
    ReadsAtLeastNeg n (fmul k a b) := by
  obtain ⟨x, c, ha, hc, hx⟩ := ha
  obtain ⟨y, d, hb, hd, hy⟩ := hb
  rw [fmul_fin ha hb]
  cases x with
  | false =>
    have hone : units c * units d ≤ units d * 2 ^ 149 := by
      rw [Nat.mul_comm]
      exact Nat.mul_le_mul_left _ (units_strictMono.monotone hc)
    obtain ⟨e, he, hop⟩ := operand_roundFlush_le (false ^^ y) (Nat.two_pow_pos 149) hd hone
    exact ⟨_, e, hop, by omega, fun h => he.trans (hy (by simpa using h))⟩
  | true =>
    obtain rfl : c = 0 := hx rfl
    obtain ⟨e, he, hop⟩ := operand_roundFlush_le (true ^^ y) (p := units 0 * units d) (c := 0) (Nat.two_pow_pos 149)
      (by decide) (by simp)
    exact ⟨_, e, hop, by omega, fun _ => by omega⟩

/-- The sum with the number that bounds it is not negative: a minus sign can come with an exact zero only. -/
theorem fge_fadd_zeroF {y : Bool} (ha : ReadsAtLeastNeg n a) (hb : operand b = .fin y (units n))
    (hy : y = true → n = 0) : fge (fadd k a b) Config.zeroF = true := by
  obtain ⟨x, c, ha, -, hx⟩ := ha
  have hlo : -(units n : Int) ≤ signedInt x (units c) := by
    cases x with
    | false => exact (Int.neg_nonpos_of_nonneg (Int.natCast_nonneg _)).trans (Int.natCast_nonneg _)
    | true => exact Int.neg_le_neg (Int.ofNat_le.mpr (units_strictMono.monotone (hx rfl)))
  have hz : 0 ≤ signedInt x (units c) + signedInt y (units n) := by
    rw [signedInt_of_nonneg (neg := y) (by simpa using hy)]
    omega
  rw [fadd_fin ha hb]
  refine (fge_zeroF_iff _).mpr ⟨isNaN_roundFlush .., fun hs => ?_⟩
  rw [signBit_roundFlush] at hs
  split_ifs at hs ⊢ with h0
  · rw [h0, Int.natAbs_zero, roundFlush_zero, flushSubnormal_zeroOf, zeroOf, magnitude_signed _ (by decide)]
  · exact absurd (of_decide_eq_true hs) (by omega)

end Step

/-- The new level is not negative: the difference and the product are not below the negated target. -/
theorem fge_envStep_zeroF {k : Nat} {e : Envelope} (hl : isFinite e.level = true) (ht : isFinite e.target = true)
    (hl0 : fge e.level Config.zeroF = true) (ht0 : fge e.target Config.zeroF = true)
    (hm : between Config.zeroF e.multiplier Config.oneF = true) : fge (envStep k e) Config.zeroF = true := by
  have hlt {a : Word} (h : isFinite a = true) : magnitude (flushSubnormal a) < 0x7F800000 := by
    rwa [← isFinite_iff, isFinite_flushSubnormal]
  have hsub := readsAtLeastNeg_fsub (k := k) (hlt hl) (hlt ht) (readsWithin_of_fge hl hl0) (readsWithin_of_fge ht ht0)
  have hmul := readsAtLeastNeg_fmul (k := k) (readsWithin_of_between hm) hsub
  exact fge_fadd_zeroF hmul (operand_of_isFinite ht) ((fge_zeroF_iff _).mp ht0).2

/-- Settles O26: the step keeps the level so, and a new target is the sustain level. -/
theorem envNextKeepsLevelNonNegative : Obligations.EnvNextKeepsLevelNonNegative := by
  unfold Obligations.EnvNextKeepsLevelNonNegative
  intro k e hl ht hl0 ht0 hm hs
  have hstep := fge_envStep_zeroF (k := k) hl ht hl0 ht0 hm
  unfold envNext
  dsimp only
  split
  · exact ⟨hstep, hs⟩
  · exact ⟨hstep, ht0⟩

end Sys2Proof.Machine
end

section
/-! SUPPORT. A data word of another host inside a packet (R109). -/

namespace Sys2Proof.Machine

/-- While data words are missing, a word of another host than the packet's interleaves. -/
theorem takeWord_foreignWord {d : Dec} (hd : d.need ≠ 0) {src : Nat} (hs : src ≠ d.src) (w : Word) :
    takeWord d src w = .interleaved := by
  rw [takeWord, if_neg hd, if_pos hs]

theorem fetch_of_interleaved {d : Dec} {src : Nat} {w : Word} (h : takeWord d src w = .interleaved)
    (rest : List Input) : fetch d (.word src w :: rest) = .interleaved := by
  rw [fetch, h]

theorem step_of_interleaved {s : State} (h : fetch s.dec s.inputs = .interleaved) :
    step s = .refused .interleavedPacket := by
  rw [step, h]

/-- Settles O12: the fetch goes on from the decoder that the first events leave, and there the foreign word interleaves. -/
theorem interleavedPacketIsRefused : Obligations.InterleavedPacketIsRefused := by
  unfold Obligations.InterleavedPacketIsRefused
  intro s before rest d src w hbefore hneed hsrc hinputs
  apply step_of_interleaved
  calc fetch s.dec s.inputs
      _ = fetch s.dec (before ++ .word src w :: rest) := by rw [hinputs]
      _ = fetch d (.word src w :: rest) := fetch_append hbefore _
      _ = .interleaved := fetch_of_interleaved (takeWord_foreignWord hneed hsrc w) rest

end Sys2Proof.Machine
end

section
/-! SUPPORT. The decoder and the encoder against each other (R130 to R136). -/

namespace Sys2Proof

/-! ### The fields of a command word (R131) -/

theorem opField_lt (w : Word) : opField w < 64 := by
  have hw := w.isLt
  unfold opField
  omega

theorem fieldsOk_iff (usesV usesU usesA : Bool) (w : Word) : fieldsOk usesV usesU usesA w = true ↔
    zField w = 0 ∧ (usesV = false → vField w = 0) ∧ (usesU = false → uField w = 0) ∧
      (usesA = false → aField w = 0) := by
  cases usesV <;> cases usesU <;> cases usesA <;> simp [fieldsOk, and_assoc]

/-- A word with Z = 0 is built from its other fields. -/
theorem cmdWord_fields {w : Word} (hz : zField w = 0) : cmdWord (opField w) (vField w) (uField w) (aField w) = w := by
  have hw := w.isLt
  apply BitVec.eq_of_toNat_eq
  rw [toNat_cmdWord (opField_lt w)]
  simp only [zField, opField, vField, uField, aField, BitVec.toNat_ofNat] at hz ⊢
  omega

theorem ite_eq_of_unused {α : Type} [Zero α] {b : Bool} {x : α} (h : b = false → x = 0) :
    (if b then x else 0) = x := by
  cases b
  · exact (h rfl).symm
  · rfl

/-- A word whose unused fields are 0 is built from the fields it uses. -/
theorem cmdWord_usedFields {usesV usesU usesA : Bool} {w : Word} (h : fieldsOk usesV usesU usesA w = true) :
    cmdWord (opField w) (if usesV then vField w else 0) (if usesU then uField w else 0)
      (if usesA then aField w else 0) = w := by
  obtain ⟨hz, hv, hu, ha⟩ := (fieldsOk_iff _ _ _ _).mp h
  rw [ite_eq_of_unused hv, ite_eq_of_unused hu, ite_eq_of_unused ha, cmdWord_fields hz]

/-- A word that decodes to a command is that command's word, and the command's data words are the first of those it was
given. -/
theorem encode_of_decodeCmd {w d0 d1 : Word} {i : Instr} (h : decodeCmd w d0 d1 = .ok i) :
    encodeCmd i = w ∧ encodeData i <+: [d0, d1] := by
  unfold decodeCmd at h
  split at h
  case h_29 => simp at h
  all_goals
    next hop =>
    obtain ⟨hf, rfl⟩ := (checked_eq_ok_iff ..).mp h
    have hw := cmdWord_usedFields hf
    rw [hop] at hw
    exact ⟨hw, by simp [encodeData]⟩

/-! ### The first packet of a list of words -/

theorem dataWords_le_two (w : Word) : dataWords w ≤ 2 := by
  unfold dataWords
  split <;> decide

theorem isPrefix_getD {ds : List Word} (h : ds.length ≤ 2) : ds <+: [ds.getD 0 0, ds.getD 1 0] := by
  match ds with
  | [] | [_] | [_, _] => simp
  | _ :: _ :: _ :: _ => simp at h

theorem map_pair_eq_ok_iff {x : Except Reject Instr} {rest rest' : List Word} {i : Instr} :
    x.map (·, rest') = .ok (i, rest) ↔ x = .ok i ∧ rest' = rest := by
  cases x <;> simp [Except.map]

/-- `decode` takes the data words the opcode asks for. -/
theorem decode_append {w : Word} {ds : List Word} (hlen : ds.length = dataWords w) {i : Instr}
    (hi : decodeCmd w (ds.getD 0 0) (ds.getD 1 0) = .ok i) (rest : List Word) :
    decode (w :: ds ++ rest) = .ok (i, rest) := by
  obtain ⟨j, hj⟩ := exists_decodeCmd_ok hi 0#32 0#32
  have h2 := dataWords_le_two w
  unfold decode
  match ds with
  | [] | [_] | [_, _] => simpa [hj, ← hlen, map_pair_eq_ok_iff] using hi
  | _ :: _ :: _ :: _ => simp only [List.length_cons] at hlen; omega

/-- `decode` reads a command word, as many data words as its opcode asks for, and nothing more. -/
theorem decode_eq_ok_iff (ws rest : List Word) (i : Instr) : decode ws = .ok (i, rest) ↔
    ∃ w ds, ws = w :: ds ++ rest ∧ ds.length = dataWords w ∧ decodeCmd w (ds.getD 0 0) (ds.getD 1 0) = .ok i := by
  constructor
  · intro h
    unfold decode at h
    split at h
    · cases h
    next w ws =>
    split at h
    · cases h
    split at h
    case h_1 hn =>
      obtain ⟨hi, rfl⟩ := map_pair_eq_ok_iff.mp h
      exact ⟨w, [], rfl, hn.symm, hi⟩
    case h_2 d0 rest' hn =>
      obtain ⟨hi, rfl⟩ := map_pair_eq_ok_iff.mp h
      exact ⟨w, [d0], rfl, hn.symm, hi⟩
    case h_3 d0 d1 rest' hn =>
      obtain ⟨hi, rfl⟩ := map_pair_eq_ok_iff.mp h
      exact ⟨w, [d0, d1], rfl, hn.symm, hi⟩
    case h_4 => cases h
  · rintro ⟨w, ds, rfl, hlen, hi⟩
    exact decode_append hlen hi rest

/-- Settles O1: the encoded word has as many data words as `decode` takes, and decodes with them to the command. -/
theorem decodeOfEncodeIsTheCommand : Obligations.DecodeOfEncodeIsTheCommand := by
  unfold Obligations.DecodeOfEncodeIsTheCommand
  intro i rest
  have hlen := (dataWords_encodeCmd i).symm
  exact decode_append hlen (decodeCmd_encodeCmd (isPrefix_getD (hlen ▸ dataWords_le_two _))) rest

/-- Settles O2: the word that decodes is the command's, and so are the data words, since there are as many. -/
theorem encodeOfDecodeIsThePacket : Obligations.EncodeOfDecodeIsThePacket := by
  unfold Obligations.EncodeOfDecodeIsThePacket
  intro ws rest i h
  obtain ⟨w, ds, rfl, hlen, hi⟩ := (decode_eq_ok_iff ws rest i).mp h
  obtain ⟨rfl, hdata⟩ := encode_of_decodeCmd hi
  have hds : ds <+: [ds.getD 0 0, ds.getD 1 0] := isPrefix_getD (hlen ▸ dataWords_le_two _)
  rw [dataWords_encodeCmd] at hlen
  rw [encode, (List.prefix_of_prefix_length_le hds hdata hlen.le).eq_of_length hlen]

/-- Settles O5: the decoder, run on each of the words. -/
theorem workedEncodingsDecode : Obligations.WorkedEncodingsDecode :=
  ⟨rfl, rfl, rfl, rfl, rfl, rfl, rfl, rfl, rfl, rfl, rfl⟩

end Sys2Proof
end

section
/-! SUPPORT. The opcode map of R136, read by masks, against the decoder, which works field by field. -/

namespace Sys2Proof

/-! ### A word, field by field (R131) -/

theorem toNat_extractLsb'_eq (w : Word) (start len : Nat) :
    (w.extractLsb' start len).toNat = w.toNat / 2 ^ start % 2 ^ len := by
  rw [BitVec.extractLsb'_toNat, Nat.shiftRight_eq_div_pow]

theorem extractLsb'_eq_zero_iff (w : Word) (start len : Nat) :
    w.extractLsb' start len = 0 ↔ w.toNat / 2 ^ start % 2 ^ len = 0 := by
  rw [← BitVec.toNat_inj, toNat_extractLsb'_eq]
  rfl

theorem opField_eq_iff (x y : Word) : opField x = opField y ↔ x.extractLsb' 26 6 = y.extractLsb' 26 6 := by
  have hx := x.isLt
  have hy := y.isLt
  simp only [← BitVec.toNat_inj, toNat_extractLsb'_eq, opField]
  omega

/-- Two words are equal if their fields are. -/
theorem eq_iff_extract (x y : Word) : x = y ↔ x.extractLsb' 26 6 = y.extractLsb' 26 6 ∧
    x.extractLsb' 23 3 = y.extractLsb' 23 3 ∧ x.extractLsb' 22 1 = y.extractLsb' 22 1 ∧
    x.extractLsb' 16 6 = y.extractLsb' 16 6 ∧ x.extractLsb' 0 16 = y.extractLsb' 0 16 := by
  have hx := x.isLt
  have hy := y.isLt
  simp only [← BitVec.toNat_inj, toNat_extractLsb'_eq]
  omega

theorem fieldsOk_iff_extract (usesV usesU usesA : Bool) (w : Word) : fieldsOk usesV usesU usesA w = true ↔
    (usesV = false → w.extractLsb' 23 3 = 0) ∧ (usesU = false → w.extractLsb' 22 1 = 0) ∧
      w.extractLsb' 16 6 = 0 ∧ (usesA = false → w.extractLsb' 0 16 = 0) := by
  have hv : vField w = 0 ↔ w.extractLsb' 23 3 = 0 := Fin.ext_iff.trans (extractLsb'_eq_zero_iff w 23 3).symm
  have hu : uField w = 0 ↔ w.extractLsb' 22 1 = 0 := Fin.ext_iff.trans (extractLsb'_eq_zero_iff w 22 1).symm
  have hz : zField w = 0 ↔ w.extractLsb' 16 6 = 0 := (extractLsb'_eq_zero_iff w 16 6).symm
  have ha : aField w = 0 ↔ w.extractLsb' 0 16 = 0 := by
    rw [extractLsb'_eq_zero_iff, aField, ← BitVec.toNat_inj, BitVec.toNat_ofNat]
    simp
  rw [fieldsOk_iff, hv, hu, hz, ha]
  tauto

/-! ### Rows (R136) -/

/-- Whether a row's command uses V: its mask leaves the field out. -/
def OpRow.usesV (r : OpRow) : Bool := !r.mask.getLsbD 23

/-- Whether a row's command uses U. -/
def OpRow.usesU (r : OpRow) : Bool := !r.mask.getLsbD 22

/-- Whether a row's command uses A. -/
def OpRow.usesA (r : OpRow) : Bool := !r.mask.getLsbD 0

/-- A row's mask takes the opcode, Z, and every field the row does not use, whole. -/
theorem opRows_mask : ∀ r ∈ opRows,
    r.mask.extractLsb' 26 6 = BitVec.allOnes 6 ∧
    r.mask.extractLsb' 23 3 = (if r.usesV then 0 else BitVec.allOnes 3) ∧
    r.mask.extractLsb' 22 1 = (if r.usesU then 0 else BitVec.allOnes 1) ∧
    r.mask.extractLsb' 16 6 = BitVec.allOnes 6 ∧
    r.mask.extractLsb' 0 16 = (if r.usesA then 0 else BitVec.allOnes 16) := by decide

/-- A row's pattern is an opcode and zeros. -/
theorem opRows_pattern : ∀ r ∈ opRows,
    r.pattern.extractLsb' 23 3 = 0 ∧ r.pattern.extractLsb' 22 1 = 0 ∧ r.pattern.extractLsb' 16 6 = 0 ∧
    r.pattern.extractLsb' 0 16 = 0 := by decide

theorem and_ite_allOnes_eq_zero_iff {n : Nat} (x : BitVec n) (b : Bool) :
    x &&& (if b then 0 else BitVec.allOnes n) = 0 ↔ (b = false → x = 0) := by
  cases b <;> simp

/-- A word passes a row's mask if its opcode is the row's and its unused fields are 0. -/
theorem and_mask_eq_pattern_iff {r : OpRow} (hr : r ∈ opRows) (w : Word) : w &&& r.mask = r.pattern ↔
    opField w = opField r.pattern ∧ fieldsOk r.usesV r.usesU r.usesA w = true := by
  obtain ⟨mop, mv, mu, mz, ma⟩ := opRows_mask r hr
  obtain ⟨pv, pu, pz, pa⟩ := opRows_pattern r hr
  rw [eq_iff_extract, fieldsOk_iff_extract, opField_eq_iff]
  simp only [BitVec.extractLsb'_and, mop, mv, mu, mz, ma, pv, pu, pz, pa, BitVec.and_allOnes,
    and_ite_allOnes_eq_zero_iff]

/-- No two rows share an opcode. -/
theorem opRows_opcode_inj : ∀ r ∈ opRows, ∀ r' ∈ opRows, opField r.pattern = opField r'.pattern → r = r' := by
  decide

theorem rowOf_eq_some {w : Word} {r : OpRow} (h : rowOf w = some r) :
    r ∈ opRows ∧ opField w = opField r.pattern ∧ fieldsOk r.usesV r.usesU r.usesA w = true := by
  have hr := List.mem_of_find?_eq_some h
  exact ⟨hr, (and_mask_eq_pattern_iff hr w).mp (by simpa using List.find?_some h)⟩

/-- The one row that can match a word is the row of its opcode. -/
theorem rowOf_of_opcode {r : OpRow} (hr : r ∈ opRows) {w : Word} (hop : opField w = opField r.pattern) :
    rowOf w = if fieldsOk r.usesV r.usesU r.usesA w then some r else none := by
  have same {r' : OpRow} (h : rowOf w = some r') : r' = r := by
    obtain ⟨hr', hop', -⟩ := rowOf_eq_some h
    exact opRows_opcode_inj r' hr' r hr (hop' ▸ hop)
  cases h : rowOf w with
  | some r' =>
    obtain rfl := same h
    obtain ⟨-, -, hf⟩ := rowOf_eq_some h
    rw [if_pos hf]
  | none =>
    have hm : ¬ (w &&& r.mask = r.pattern) := by simpa using List.find?_eq_none.mp h r hr
    rw [and_mask_eq_pattern_iff hr] at hm
    rw [if_neg fun hf => hm ⟨hop, hf⟩]

/-! ### The decoder's arms are the rows -/

/-- With a row's opcode, the decoder checks the fields the row does not use. -/
theorem decodeCmd_of_opcode {r : OpRow} (hr : r ∈ opRows) {w : Word} (hop : opField w = opField r.pattern)
    (d0 d1 : Word) : ∃ i, decodeCmd w d0 d1 = checked r.usesV r.usesU r.usesA w i := by
  unfold decodeCmd
  rw [hop]
  fin_cases hr <;> exact ⟨_, rfl⟩

/-- The opcodes that R136 leaves out, as R137 lists them. -/
abbrev MissingOpcode (op : Nat) : Prop :=
  (0x05 ≤ op ∧ op ≤ 0x07) ∨ (0x0E ≤ op ∧ op ≤ 0x0F) ∨ op = 0x13 ∨ (0x1A ≤ op ∧ op ≤ 0x1B) ∨
    (0x1E ≤ op ∧ op ≤ 0x1F) ∨ op = 0x23 ∨ (0x27 ≤ op ∧ op ≤ 0x3F)

/-- An opcode is missing or some row's. -/
theorem missingOpcode_iff : ∀ op < 64, (MissingOpcode op ↔ ∀ r ∈ opRows, op ≠ opField r.pattern) := by
  decide

theorem decodeCmd_of_missingOpcode {w : Word} (h : MissingOpcode (opField w)) (d0 d1 : Word) :
    decodeCmd w d0 d1 = .error .undefinedOp := by
  unfold decodeCmd
  split
  case h_29 => rfl
  all_goals
    next hop =>
    rw [hop] at h
    exact absurd h (by decide)

theorem missingOpcode_or_row (w : Word) :
    MissingOpcode (opField w) ∨ (¬ MissingOpcode (opField w) ∧ ∃ r ∈ opRows, opField w = opField r.pattern) := by
  have h := missingOpcode_iff _ (opField_lt w)
  by_cases hm : MissingOpcode (opField w)
  · exact .inl hm
  · exact .inr ⟨hm, by simpa [h] using hm⟩

theorem rowOf_of_missingOpcode {w : Word} (h : MissingOpcode (opField w)) : rowOf w = none := by
  refine Option.eq_none_iff_forall_ne_some.mpr fun r hrow => ?_
  obtain ⟨hr, hop, -⟩ := rowOf_eq_some hrow
  exact (missingOpcode_iff _ (opField_lt w)).mp h r hr hop

theorem decodeCmd_eq_undefinedOp_iff (w d0 d1 : Word) :
    decodeCmd w d0 d1 = .error .undefinedOp ↔ MissingOpcode (opField w) := by
  refine ⟨fun h => ?_, fun h => decodeCmd_of_missingOpcode h d0 d1⟩
  rcases missingOpcode_or_row w with hm | ⟨-, r, hr, hop⟩
  · exact hm
  · obtain ⟨i, hi⟩ := decodeCmd_of_opcode hr hop d0 d1
    simp [hi, checked_eq_error_iff] at h

theorem decodeCmd_eq_badField_iff (w d0 d1 : Word) :
    decodeCmd w d0 d1 = .error .badField ↔ ¬ MissingOpcode (opField w) ∧ rowOf w = none := by
  rcases missingOpcode_or_row w with hm | ⟨hm, r, hr, hop⟩
  · simp [decodeCmd_of_missingOpcode hm, hm]
  · obtain ⟨i, hi⟩ := decodeCmd_of_opcode hr hop d0 d1
    simp [hi, checked_eq_error_iff, rowOf_of_opcode hr hop, hm]

/-- A command word is legal if a row matches it. -/
theorem exists_decodeCmd_ok_iff (w d0 d1 : Word) : (∃ i, decodeCmd w d0 d1 = .ok i) ↔ ∃ r, rowOf w = some r := by
  rcases missingOpcode_or_row w with hm | ⟨-, r, hr, hop⟩
  · simp [decodeCmd_of_missingOpcode hm, rowOf_of_missingOpcode hm]
  · obtain ⟨i, hi⟩ := decodeCmd_of_opcode hr hop d0 d1
    simp [hi, checked_eq_ok_iff, rowOf_of_opcode hr hop]

/-- The number of data words the decoder takes is the map's. -/
theorem opRows_words : ∀ r ∈ opRows, dataWords r.pattern + 1 = r.words := by decide

theorem dataWords_of_rowOf {w : Word} {r : OpRow} (h : rowOf w = some r) : dataWords w + 1 = r.words := by
  obtain ⟨hr, hop, -⟩ := rowOf_eq_some h
  rw [← opRows_words r hr, dataWords, dataWords, hop]

theorem wellFormed_cons_iff (w : Word) (ds : List Word) :
    Packet.wellFormed (w :: ds) = true ↔ ∃ r, rowOf w = some r ∧ ds.length = dataWords w := by
  cases h : rowOf w with
  | none => simp [Packet.wellFormed, h]
  | some r => simp [Packet.wellFormed, h, ← dataWords_of_rowOf h]

theorem decode_cons_eq_ok_nil_iff (w : Word) (ds : List Word) (i : Instr) : decode (w :: ds) = .ok (i, []) ↔
    ds.length = dataWords w ∧ decodeCmd w (ds.getD 0 0) (ds.getD 1 0) = .ok i := by
  simp [decode_eq_ok_iff]

/-- Settles O3: both sides ask for the data words of the opcode, and a row matches a word exactly if the word decodes. -/
theorem decoderAcceptsExactlyTheOpcodeMap : Obligations.DecoderAcceptsExactlyTheOpcodeMap := by
  unfold Obligations.DecoderAcceptsExactlyTheOpcodeMap
  intro ws
  cases ws with
  | nil => simp [Packet.wellFormed, decode]
  | cons w ds =>
    simp only [wellFormed_cons_iff, decode_cons_eq_ok_nil_iff, exists_and_left, exists_decodeCmd_ok_iff, and_comm]

/-- Two data words are enough for any legal command word, so a packet that has them is rejected for its command word. -/
theorem packetWords_of_decode_eq_error {w d0 d1 : Word} {r : Reject} (h : decode (w :: [d0, d1]) = .error r) :
    packetWords w = 1 := by
  unfold packetWords
  cases hj : decodeCmd w 0 0 with
  | error r => rfl
  | ok j =>
    let ds := [d0, d1].take (dataWords w)
    obtain ⟨i, hi⟩ := exists_decodeCmd_ok hj (ds.getD 0 0) (ds.getD 1 0)
    have hlen : ds.length = dataWords w := List.length_take_of_le (dataWords_le_two w)
    have hok := decode_append hlen hi ([d0, d1].drop (dataWords w))
    rw [List.cons_append, List.take_append_drop, h] at hok
    cases hok

/-- Settles O4: a missing opcode has no arm and no row, and any other has one of each, which check the same fields. -/
theorem illegalWordsAreRejectedByCause : Obligations.IllegalWordsAreRejectedByCause := by
  unfold Obligations.IllegalWordsAreRejectedByCause
  intro w d0 d1
  exact ⟨decodeCmd_eq_undefinedOp_iff w d0 d1, decodeCmd_eq_badField_iff w d0 d1, decodeCmd_ne_truncated w d0 d1,
    fun _ h => packetWords_of_decode_eq_error h⟩

end Sys2Proof
end

section
/-! SUPPORT. Commands with a voice field touch that voice alone (R132, R362). -/

namespace Sys2Proof.Machine

/-- What a command with a voice field does is one update of the voice it names. -/
theorem exec_of_voice {i : Instr} {v : Fin 8} (h : i.voice? = some v) (s : State) :
    ∃ f, exec i s = .next (s.updVoice v f) := by
  cases i <;> simp only [Instr.voice?, reduceCtorEq, Option.some.injEq] at h
  all_goals
    subst h
    exact ⟨_, rfl⟩

/-- Settles O40: the command updates the voice it names, and an update of one voice leaves the rest alone. -/
theorem voiceCommandsTouchTheirVoiceOnly : Obligations.VoiceCommandsTouchTheirVoiceOnly := by
  unfold Obligations.VoiceCommandsTouchTheirVoiceOnly
  intro i s t v hv ht
  obtain ⟨f, hf⟩ := exec_of_voice hv s
  obtain rfl : s.updVoice v f = t := by simpa [hf] using ht
  exact ⟨samePorts_updVoice s v f, fun r hr => readReg_updVoice_ne s f hr⟩

end Sys2Proof.Machine
end

section
/-! SUPPORT. The encoding that each command's rule states, from that command's arm of the decoder. -/

namespace Sys2Proof.Machine

/-- An opcode's arm checks the unused fields and takes the command: that is what `CommandWord` says of the opcode. -/
theorem commandWord_of_arm {op words : Nat} {usesV usesU usesA : Bool} {mk : Word → Word → Word → Instr}
    (hwords : ∀ w, opField w = op → dataWords w + 1 = words)
    (harm : ∀ w d0 d1, opField w = op → decodeCmd w d0 d1 = checked usesV usesU usesA w (mk w d0 d1)) :
    CommandWord op usesV usesU usesA words mk := by
  intro w d0 d1 hop
  rw [← fieldsOk_iff, harm w d0 d1 hop, checked_eq_ok_iff, checked_eq_error_iff]
  exact ⟨hwords w hop, fun h => ⟨h, rfl⟩, fun h => ⟨Bool.eq_false_iff.mpr h, rfl⟩⟩

end Sys2Proof.Machine
end

section
/-! SUPPORT. What an update of one unit, and a write of one register, leaves unchanged (R44, R171). -/

namespace Sys2Proof.Machine

/-! ### Updates of one unit -/

/-- An update of the globals changes the global registers it changes, and no other. -/
theorem sameRegsExcept_updGlobals {regs : List Reg} {s : State} {f : Globals → Globals}
    (h : ∀ r, .glob r ∉ regs → readGlobal (f s.g) r = readGlobal s.g r) :
    SameRegsExcept regs s (s.updGlobals f) := by
  intro r hr
  cases r with
  | glob r => exact h r hr
  | _ => exact readReg_updGlobals s f rfl

@[simp] theorem readVoice_updOsc (vo : Voice) (u : Fin 2) (f : Oscillator → Oscillator) (r : VReg) :
    readVoice (vo.updOsc u f) r = readVoice vo r := by
  cases r <;> simp [readVoice]

@[simp] theorem readVoice_updEnv (vo : Voice) (u : Fin 2) (f : Envelope → Envelope) (r : VReg) :
    readVoice (vo.updEnv u f) r = readVoice vo r := by
  cases r <;> simp [readVoice]

@[simp] theorem readVoice_updFilt (vo : Voice) (f : Filter → Filter) (r : VReg) :
    readVoice (vo.updFilt f) r = readVoice vo r := by
  cases r <;> rfl

/-- A register reads the same after an update of a voice that keeps the unit the register belongs to. -/
theorem readReg_updVoice_congr (s : State) {v : Fin 8} {f : Voice → Voice} {q : Reg}
    (hrec : ∀ r, q = .voice v r → readVoice (f (s.voice v)) r = readVoice (s.voice v) r)
    (hosc : ∀ u r, q = .osc v u r → (f (s.voice v)).osc u = (s.voice v).osc u)
    (henv : ∀ u r, q = .env v u r → (f (s.voice v)).env u = (s.voice v).env u)
    (hfilt : ∀ r, q = .filt v r → (f (s.voice v)).filt = (s.voice v).filt) :
    readReg (s.updVoice v f) q = readReg s q := by
  by_cases hq : q.voice? = some v
  · cases q with
    | glob r => cases hq
    | voice w r =>
      cases hq
      simp [readReg, hrec r rfl]
    | osc w u r =>
      cases hq
      simp [readReg, hosc u r rfl]
    | env w u r =>
      cases hq
      simp [readReg, henv u r rfl]
    | filt w r =>
      cases hq
      simp [readReg, hfilt r rfl]
  · exact readReg_updVoice_ne s f hq

/-- An update of one oscillator changes its own registers alone. -/
theorem readReg_updOsc_ne (s : State) {v : Fin 8} {u : Fin 2} (f : Oscillator → Oscillator) {q : Reg}
    (h : ∀ r, q ≠ .osc v u r) : readReg (s.updVoice v (·.updOsc u f)) q = readReg s q :=
  readReg_updVoice_congr s (fun r _ => readVoice_updOsc _ u f r)
    (fun w r e => Voice.updOsc_osc_ne _ f fun hw : w = u => h r (hw ▸ e)) (fun w _ _ => Voice.updOsc_env _ u f w)
    (fun _ _ => Voice.updOsc_filt _ u f)

/-- An update of one envelope changes its own registers alone. -/
theorem readReg_updEnv_ne (s : State) {v : Fin 8} {u : Fin 2} (f : Envelope → Envelope) {q : Reg}
    (h : ∀ r, q ≠ .env v u r) : readReg (s.updVoice v (·.updEnv u f)) q = readReg s q :=
  readReg_updVoice_congr s (fun r _ => readVoice_updEnv _ u f r) (fun w _ _ => Voice.updEnv_osc _ u f w)
    (fun w r e => Voice.updEnv_env_ne _ f fun hw : w = u => h r (hw ▸ e)) (fun _ _ => Voice.updEnv_filt _ u f)

/-- An update of one filter changes its own registers alone. -/
theorem readReg_updFilt_ne (s : State) {v : Fin 8} (f : Filter → Filter) {q : Reg}
    (h : ∀ r, q ≠ .filt v r) : readReg (s.updVoice v (·.updFilt f)) q = readReg s q :=
  readReg_updVoice_congr s (fun r _ => readVoice_updFilt _ f r) (fun w _ _ => Voice.updFilt_osc _ f w)
    (fun w _ _ => Voice.updFilt_env _ f w) (fun r e => absurd e (h r))

@[simp] theorem writeVoice_osc (w : Word) (vo : Voice) (r : VReg) (u : Fin 2) :
    (writeVoice w vo r).osc u = vo.osc u := by
  cases r <;> rfl

@[simp] theorem writeVoice_env (w : Word) (vo : Voice) (r : VReg) (u : Fin 2) :
    (writeVoice w vo r).env u = vo.env u := by
  cases r <;> rfl

@[simp] theorem writeVoice_filt (w : Word) (vo : Voice) (r : VReg) : (writeVoice w vo r).filt = vo.filt := by
  cases r <;> rfl

/-- A write of a voice's record leaves the registers of its units, and of every other voice, alone. -/
theorem readReg_writeVoice_ne (s : State) (w : Word) {v : Fin 8} (r : VReg) {q : Reg}
    (h : ∀ r', q ≠ .voice v r') : readReg (s.updVoice v (writeVoice w · r)) q = readReg s q :=
  readReg_updVoice_congr s (fun r' e => absurd e (h r')) (fun u _ _ => writeVoice_osc w _ r u)
    (fun u _ _ => writeVoice_env w _ r u) (fun _ _ => writeVoice_filt w _ r)

/-! ### Writes inside one unit -/

/-- `STATUS` alone is not one register on a write: it clears `ILL_WORD` too (R52). -/
theorem readGlobal_writeGlobal_ne (w : Word) (g : Globals) {r q : GReg} (h : q ≠ r) (hs : r ≠ .status) :
    readGlobal (writeGlobal w g r) q = readGlobal g q := by
  have hwrite : readGlobal (writeGlobal w g r) q =
      if q = r then readGlobal (writeGlobal w g r) r else readGlobal g q := by
    cases r
    case status => exact absurd rfl hs
    all_goals cases q <;> rfl
  rw [hwrite, if_neg h]

theorem readVoice_writeVoice_ne (w : Word) (vo : Voice) {r q : VReg} (h : q ≠ r) :
    readVoice (writeVoice w vo r) q = readVoice vo q := by
  have hwrite : readVoice (writeVoice w vo r) q =
      if q = r then readVoice (writeVoice w vo r) r else readVoice vo q := by
    cases r <;> cases q <;> rfl
  rw [hwrite, if_neg h]

theorem readOsc_writeOsc_ne (w : Word) (o : Oscillator) {r q : OReg} (h : q ≠ r) :
    readOsc (writeOsc w o r) q = readOsc o q := by
  have hwrite : readOsc (writeOsc w o r) q = if q = r then readOsc (writeOsc w o r) r else readOsc o q := by
    cases r <;> cases q <;> rfl
  rw [hwrite, if_neg h]

/-- `ENV_STATUS` is computed from level and target (R54), so a write of one of these may change it. -/
theorem readEnv_writeEnv_ne (w : Word) (e : Envelope) {r q : EReg} (h : q ≠ r)
    (hs : r = .level ∨ r = .target → q ≠ .status) : readEnv (writeEnv w e r) q = readEnv e q := by
  have hwrite : readEnv (writeEnv w e r) q = if q = r then readEnv (writeEnv w e r) r else readEnv e q := by
    cases q with
    | status =>
      cases r with
      | level | target => simp at hs
      | _ => rfl
    | _ => cases r <;> rfl
  rw [hwrite, if_neg h]

theorem readFilt_writeFilt_ne (w : Word) (f : Filter) {r q : FReg} (h : q ≠ r) :
    readFilt (writeFilt w f r) q = readFilt f q := by
  have hwrite : readFilt (writeFilt w f r) q = if q = r then readFilt (writeFilt w f r) r else readFilt f q := by
    cases r <;> cases q <;> rfl
  rw [hwrite, if_neg h]

/-! ### Writes of one register -/

/-- A register that can be written, other than `STATUS` and `CTRL`, reads the word written. -/
theorem readReg_writeReg_self (s : State) (w : Word) {r : Reg} (hr : r.readOnly = false) (hs : r ≠ .glob .status)
    (hc : r ≠ .glob .ctrl) : readReg (writeReg s w r) r = w := by
  cases r with
  | glob r => exact readGlobal_writeGlobal w s.g hr (by simpa using hs) (by simpa using hc)
  | voice v r =>
    simp only [Reg.readOnly, Bool.or_eq_false_iff, beq_eq_false_iff_ne] at hr
    simpa [readReg, writeReg] using readVoice_writeVoice w (s.voice v) hr
  | osc v u r =>
    simp only [Reg.readOnly, beq_eq_false_iff_ne] at hr
    simpa [readReg, writeReg] using readOsc_writeOsc w ((s.voice v).osc u) hr
  | env v u r =>
    simp only [Reg.readOnly, beq_eq_false_iff_ne] at hr
    simpa [readReg, writeReg] using readEnv_writeEnv w ((s.voice v).env u) hr
  | filt v r =>
    simp only [Reg.readOnly, beq_eq_false_iff_ne] at hr
    simpa [readReg, writeReg] using readFilt_writeFilt w (s.voice v).filt hr

/-- A write changes no other register, but for `ILL_WORD` with `STATUS` and for the `ENV_STATUS` that a level or a target
determines. -/
theorem readReg_writeReg_ne (s : State) (w : Word) {r q : Reg} (h : q ≠ r) (hs : r ≠ .glob .status)
    (he : ∀ v u, r = .env v u .level ∨ r = .env v u .target → q ≠ .env v u .status) :
    readReg (writeReg s w r) q = readReg s q := by
  cases r with
  | glob r =>
    have hother : SameRegsExcept [.glob r] s (s.updGlobals (writeGlobal w · r)) :=
      sameRegsExcept_updGlobals fun q' hq' =>
        readGlobal_writeGlobal_ne w s.g (by simpa using hq') (by simpa using hs)
    exact hother q (by simpa using h)
  | voice v r =>
    by_cases hq : ∃ r', q = .voice v r'
    · obtain ⟨r', rfl⟩ := hq
      simpa [readReg, writeReg] using readVoice_writeVoice_ne w (s.voice v) (r := r) (q := r') (by simpa using h)
    · exact readReg_writeVoice_ne s w r (not_exists.mp hq)
  | osc v u r =>
    by_cases hq : ∃ r', q = .osc v u r'
    · obtain ⟨r', rfl⟩ := hq
      simpa [readReg, writeReg] using readOsc_writeOsc_ne w ((s.voice v).osc u) (r := r) (q := r') (by simpa using h)
    · exact readReg_updOsc_ne s _ (not_exists.mp hq)
  | env v u r =>
    by_cases hq : ∃ r', q = .env v u r'
    · obtain ⟨r', rfl⟩ := hq
      simpa [readReg, writeReg] using readEnv_writeEnv_ne w ((s.voice v).env u) (r := r) (q := r') (by simpa using h)
        (by simpa using he v u)
    · exact readReg_updEnv_ne s _ (not_exists.mp hq)
  | filt v r =>
    by_cases hq : ∃ r', q = .filt v r'
    · obtain ⟨r', rfl⟩ := hq
      simpa [readReg, writeReg] using readFilt_writeFilt_ne w (s.voice v).filt (r := r) (q := r') (by simpa using h)
    · exact readReg_updFilt_ne s _ (not_exists.mp hq)

end Sys2Proof.Machine
end

section
/-! SUPPORT. The fields of STATUS and CTRL after a write (R52, R53), and what the report of R342 shows and leaves alone. -/

namespace Sys2Proof.Machine

/-! ### STATUS and CTRL -/

theorem getLsbD_zero_statusWord (g : Globals) : (statusWord g).getLsbD 0 = g.ill := by
  rw [statusWord, BitVec.getLsbD_append]
  simp

theorem ctrlWord_eq_ite (g : Globals) : ctrlWord g = if g.mono then 1 else 0 := by
  unfold ctrlWord
  cases g.mono <;> rfl

theorem clearReport_of_clear {w : Word} (h : w.getLsbD 0 = false) (g : Globals) : clearReport w g = g :=
  if_neg (by rw [h]; decide)

theorem clearReport_of_set {w : Word} (h : w.getLsbD 0 = true) (g : Globals) :
    clearReport w g = { g with ill := false, cause := 0, illWord := 0 } := if_pos h

theorem readGlobal_clearReport_ne (w : Word) (g : Globals) {r : GReg} (hs : r ≠ .status) (hi : r ≠ .illWord) :
    readGlobal (clearReport w g) r = readGlobal g r := by
  unfold clearReport
  split
  · cases r
    case status => exact absurd rfl hs
    case illWord => exact absurd rfl hi
    all_goals rfl
  · rfl

/-- A write of `STATUS` changes `STATUS` and `ILL_WORD` alone. -/
theorem sameRegsExcept_writeReg_status (s : State) (w : Word) :
    SameRegsExcept [.glob .status, .glob .illWord] s (writeReg s w (.glob .status)) :=
  sameRegsExcept_updGlobals fun r hr => by
    simp only [List.mem_cons, Reg.glob.injEq, List.not_mem_nil, or_false, not_or] at hr
    exact readGlobal_clearReport_ne w s.g hr.1 hr.2

theorem readReg_writeReg_status_of_set (s : State) {w : Word} (h : w.getLsbD 0 = true) :
    readReg (writeReg s w (.glob .status)) (.glob .status) = 0 ∧
      readReg (writeReg s w (.glob .status)) (.glob .illWord) = 0 := by
  simp only [writeReg, readReg_updGlobals_glob, writeGlobal, clearReport_of_set h]
  exact ⟨by simp [readGlobal, statusWord], rfl⟩

theorem writeReg_status_of_clear (s : State) {w : Word} (h : w.getLsbD 0 = false) :
    writeReg s w (.glob .status) = s := by
  simp only [writeReg, State.updGlobals, writeGlobal, clearReport_of_clear h]

theorem readReg_writeReg_ctrl (s : State) (w : Word) :
    readReg (writeReg s w (.glob .ctrl)) (.glob .ctrl) = if w.getLsbD 0 then 1 else 0 :=
  ctrlWord_eq_ite _

theorem sameRegsExcept_writeReg_ctrl (s : State) (w : Word) :
    SameRegsExcept [.glob .ctrl] s (writeReg s w (.glob .ctrl)) := fun r hr =>
  readReg_writeReg_ne s w (by simpa using hr) (by simp) (by simp)

/-! ### The report (R342) -/

theorem readGlobal_recordIllegal_ne (cause : BitVec 4) (w : Word) (g : Globals) {r : GReg} (hs : r ≠ .status)
    (hi : r ≠ .illWord) : readGlobal (recordIllegal cause w g) r = readGlobal g r := by
  unfold recordIllegal
  split
  · rfl
  · cases r
    case status => exact absurd rfl hs
    case illWord => exact absurd rfl hi
    all_goals rfl

/-- The report changes `STATUS` and `ILL_WORD` alone. -/
theorem sameRegsExcept_raiseIllegal (cause : BitVec 4) (w : Word) (s : State) :
    SameRegsExcept [.glob .status, .glob .illWord] s (raiseIllegal cause w s) := by
  intro r hr
  cases r with
  | glob r =>
    simp only [List.mem_cons, Reg.glob.injEq, List.not_mem_nil, or_false, not_or] at hr
    rw [readReg, raiseIllegal_g]
    exact readGlobal_recordIllegal_ne cause w s.g hr.1 hr.2
  | _ => exact readReg_congr _ nofun fun v _ => raiseIllegal_voice cause w s v

/-- `STATUS` after a report: the cause next to `ILL`, if `ILL` was 0. -/
theorem readReg_raiseIllegal_status (cause : BitVec 4) (w : Word) (s : State) :
    readReg (raiseIllegal cause w s) (.glob .status) =
      if (readReg s (.glob .status)).getLsbD 0 then readReg s (.glob .status) else 0#24 ++ cause ++ 0#3 ++ 1#1 := by
  simp only [readReg, readGlobal, raiseIllegal_g, getLsbD_zero_statusWord, recordIllegal]
  split
  · rfl
  · rfl

/-- `ILL_WORD` after a report: the word reported, if `ILL` was 0. -/
theorem readReg_raiseIllegal_illWord (cause : BitVec 4) (w : Word) (s : State) :
    readReg (raiseIllegal cause w s) (.glob .illWord) =
      if (readReg s (.glob .status)).getLsbD 0 then readReg s (.glob .illWord) else w := by
  simp only [readReg, readGlobal, raiseIllegal_g, getLsbD_zero_statusWord, recordIllegal]
  split <;> rfl

end Sys2Proof.Machine
end

section
/-! SUPPORT. The register access commands (R170 to R172), and which commands touch the response port (D6, R342). -/

namespace Sys2Proof.Machine

/-! ### Encodings and the words a report names (R344) -/

theorem encodeCmd_regWr (a : Addr) (value : Word) :
    encodeCmd (.regWr a value) = BitVec.ofNat 32 (0x04000000 + a.toNat) := by
  simp [encodeCmd, cmdWord]

theorem encodeCmd_regRd (a : Addr) : encodeCmd (.regRd a) = BitVec.ofNat 32 (0x08000000 + a.toNat) := by
  simp [encodeCmd, cmdWord]

theorem commandWord_nop : CommandWord 0x00 false false false 1 (fun _ _ _ => .nop) :=
  commandWord_of_arm (fun w h => by simp only [dataWords, h]) (fun w d0 d1 h => by simp only [decodeCmd, h])

theorem commandWord_regWr : CommandWord 0x01 false false true 2 (fun w value _ => .regWr (aField w) value) :=
  commandWord_of_arm (fun w h => by simp only [dataWords, h]) (fun w d0 d1 h => by simp only [decodeCmd, h])

theorem commandWord_regRd : CommandWord 0x02 false false true 1 (fun w _ _ => .regRd (aField w)) :=
  commandWord_of_arm (fun w h => by simp only [dataWords, h]) (fun w d0 d1 h => by simp only [decodeCmd, h])

/-! ### The accesses, by what the address holds -/

theorem regWrite_of_unmapped {a : Addr} (h : regAt a = none) (value : Word) (s : State) :
    regWrite a value s = raiseIllegal 3 (encodeCmd (.regWr a value)) s := by
  rw [regWrite, h]

theorem regWrite_of_readOnly {a : Addr} {r : Reg} (h : regAt a = some r) (hr : r.readOnly = true) (value : Word)
    (s : State) : regWrite a value s = raiseIllegal 4 (encodeCmd (.regWr a value)) s := by
  rw [regWrite, h]
  exact if_pos hr

theorem regWrite_of_writable {a : Addr} {r : Reg} (h : regAt a = some r) (hr : r.readOnly = false) (value : Word)
    (s : State) : regWrite a value s = writeReg s value r := by
  rw [regWrite, h]
  exact if_neg (by rw [hr]; decide)

theorem regRead_of_unmapped {a : Addr} (h : regAt a = none) (s : State) :
    regRead a s = raiseIllegal 3 (encodeCmd (.regRd a)) s := by
  rw [regRead, h]

theorem regRead_of_mapped {a : Addr} {r : Reg} (h : regAt a = some r) (s : State) :
    regRead a s = s.respond (readReg s r) := by
  rw [regRead, h]

/-! ### The response port -/

/-- Only the report of a `REG_RD` responds (R342). -/
theorem samePorts_raiseIllegal {w : Word} (h : opField w ≠ 0x02) (cause : BitVec 4) (s : State) :
    SamePorts s (raiseIllegal cause w s) := by
  rw [raiseIllegal, if_neg h]
  exact samePorts_updGlobals s _

theorem samePorts_regWrite (a : Addr) (value : Word) (s : State) : SamePorts s (regWrite a value s) := by
  have hop : opField (encodeCmd (.regWr a value)) ≠ 0x02 := by simp [opField_encodeCmd, opcodeOf]
  rcases regWrite_cases a value s with ⟨-, e⟩ | ⟨r, -, -, e⟩ | ⟨r, -, -, e⟩ <;> rw [e]
  · exact samePorts_raiseIllegal hop 3 s
  · exact samePorts_raiseIllegal hop 4 s
  · exact samePorts_writeReg s value r

theorem samePorts_lfoTick (k : Nat) (s : State) : SamePorts s (lfoTick k s) := by
  unfold lfoTick
  dsimp only
  split
  · exact (samePorts_updGlobals s _).trans (samePorts_mapVoices _ _)
  · exact samePorts_updGlobals s _

theorem samePorts_sampleStep (k : Nat) (s : State) : SamePorts s (sampleStep k s) :=
  (((samePorts_lfoTick k s).trans (samePorts_updGlobals _ _)).trans (samePorts_mapVoices _ _)).trans
    (samePorts_updGlobals _ _)

/-- Every command but `REG_RD` leaves the ports alone. -/
theorem exec_samePorts {i : Instr} (hi : ∀ a, i ≠ .regRd a) (s : State) : ∃ t, exec i s = .next t ∧ SamePorts s t := by
  cases hv : i.voice? with
  | some v =>
    obtain ⟨f, hf⟩ := exec_of_voice hv s
    exact ⟨_, hf, samePorts_updVoice s v f⟩
  | none =>
    cases i with
    | regRd a => exact absurd rfl (hi a)
    | nop => exact ⟨_, rfl, SamePorts.refl s⟩
    | regWr a value => exact ⟨_, rfl, samePorts_regWrite a value s⟩
    | lfoTick => exact ⟨_, rfl, samePorts_lfoTick _ s⟩
    | sample => exact ⟨_, rfl, samePorts_sampleStep _ s⟩
    | coreReset => exact ⟨_, rfl, (samePorts_mapVoices s _).trans (samePorts_updGlobals _ _)⟩
    | noiseReset | noiseNext | lfoReset | gainReset | gainSet _ | gainNext => exact ⟨_, rfl, samePorts_updGlobals s _⟩
    | blockBegin | blockEnd => exact ⟨_, rfl, samePorts_mapVoices s _⟩
    | _ => cases hv

/-- A `REG_RD` gets a response, whether its address is mapped or not (R172). -/
theorem regRead_response_isSome (a : Addr) (s : State) : (regRead a s).response.isSome = true := by
  rcases regRead_cases a s with ⟨-, e⟩ | ⟨r, -, e⟩ <;> rw [e]
  · rw [raiseIllegal_response, opField_encodeCmd]
    rfl
  · rfl

/-- With the port free before it, a command leaves a response exactly if it is a `REG_RD`. -/
theorem exec_response_isSome_iff (i : Instr) {s : State} (hs : s.response = none) :
    ∃ t, exec i s = .next t ∧ (t.response.isSome = true ↔ ∃ a, i = .regRd a) := by
  by_cases hi : ∃ a, i = .regRd a
  · obtain ⟨a, rfl⟩ := hi
    exact ⟨regRead a s, rfl, iff_of_true (regRead_response_isSome a s) ⟨a, rfl⟩⟩
  · obtain ⟨t, ht, -, -, hresponse, -⟩ := exec_samePorts (not_exists.mp hi) s
    exact ⟨t, ht, iff_of_false (by simp [hresponse, hs]) hi⟩

/-- An illegal command word is taken alone, and reported (R58, R342). -/
theorem step_of_illegalWord {s : State} {h : Nat} {w : Word} {rest : List Input} {r : Reject} (hd : s.dec.need = 0)
    (hin : s.inputs = .word h w :: rest) (hw : decodeCmd w 0 0 = .error r) :
    step s = .next (raiseIllegal r.cause w (s.accept s.dec rest)) := by
  have ht : takeWord s.dec h w = .illegal r w s.dec := by rw [takeWord, if_pos hd, hw]
  rw [step, hin, fetch, ht]

/-! ### The statements -/

/-- Settles O18: the arm of opcode 0x00 uses no field, and its command is the identity. -/
theorem nopChangesNothing : Obligations.NopChangesNothing := by
  unfold Obligations.NopChangesNothing
  exact ⟨fun _ => rfl, commandWord_nop⟩

/-- Settles O10: a packet frees the port, after which `REG_RD` alone fills it, by its command or by its report. -/
theorem onlyRegRdResponds : Obligations.OnlyRegRdResponds := by
  unfold Obligations.OnlyRegRdResponds
  refine ⟨fun s i h rest hd hin => ?_, fun s h w rest r hd hin hw => ⟨_, step_of_illegalWord hd hin hw, ?_⟩⟩
  · obtain ⟨d, -, hstep⟩ := stepRunsTheDecodedCommand s i h rest hd hin
    rw [hstep]
    exact exec_response_isSome_iff i (State.accept_response s d rest)
  · rw [raiseIllegal_response, State.accept_response, opField]
    split <;> simpa

/-- Settles O21: `REG_RD` responds with the register, or with 0 next to the report of its own word. -/
theorem regRdOnlyResponds : Obligations.RegRdOnlyResponds := by
  unfold Obligations.RegRdOnlyResponds
  refine ⟨commandWord_regRd, fun s a => ⟨regRead a s, rfl, ?_⟩⟩
  cases ha : regAt a with
  | some r =>
    rw [regRead_of_mapped ha]
    refine ⟨rfl, rfl, rfl, rfl, ?_, nofun⟩
    rintro r' ⟨⟩
    exact ⟨rfl, rfl, rfl⟩
  | none =>
    rw [regRead_of_unmapped ha]
    refine ⟨raiseIllegal_dec .., raiseIllegal_inputs .., raiseIllegal_freeDraws .., raiseIllegal_noiseMap .., nofun,
      fun _ => ⟨?_, sameRegsExcept_raiseIllegal 3 _ s, readReg_raiseIllegal_status .., ?_⟩⟩
    · rw [raiseIllegal_response, opField_encodeCmd]
      rfl
    · rw [readReg_raiseIllegal_illWord, encodeCmd_regRd]

/-- Settles O19: by what the address holds, a report, or a write of one register. -/
theorem regWrWritesOneRegister : Obligations.RegWrWritesOneRegister := by
  unfold Obligations.RegWrWritesOneRegister
  refine ⟨commandWord_regWr, fun s a value => ⟨regWrite a value s, rfl, samePorts_regWrite a value s, fun ha => ?_,
    fun r ha hr => ?_, fun ha => ?_, fun ha => ?_, fun r ha hr hs hc => ?_⟩⟩
  · rw [regWrite_of_unmapped ha, encodeCmd_regWr]
  · rw [regWrite_of_readOnly ha hr, encodeCmd_regWr]
  · rw [regWrite_of_writable ha rfl]
    exact ⟨sameRegsExcept_writeReg_status s value, readReg_writeReg_status_of_set s,
      fun hclear r => by rw [writeReg_status_of_clear s hclear]⟩
  · rw [regWrite_of_writable ha rfl]
    exact ⟨sameRegsExcept_writeReg_ctrl s value, readReg_writeReg_ctrl s value⟩
  · rw [regWrite_of_writable ha hr]
    exact ⟨readReg_writeReg_self s value hr hs hc, fun q hq he => readReg_writeReg_ne s value hq hs he⟩

end Sys2Proof.Machine
end

section
/-! SUPPORT. The number an operand is read as, its place in the order, and strict bounds that rounding keeps (R13 to
R15). -/

namespace Sys2Proof.Machine

/-! ### What a pattern is read as -/

theorem operand_zeroF : operand Config.zeroF = .fin false 0 := by
  rw [operand, flushSubnormal_of_not (by decide)]
  rfl

/-- A pattern read as a finite number is, but for the flush, the pattern of that number. -/
theorem exists_signed_of_operand {a : Word} {x : Bool} {n : Nat} (h : operand a = .fin x n) :
    ∃ m < 0x7F800000, n = units m ∧ flushSubnormal a = signed x m := by
  cases hf : isFinite a with
  | false =>
    rcases isNaN_or_isInf_of_not_finite hf with hn | hi
    · simp [operand_of_isNaN hn] at h
    · simp [operand_of_isInf hi] at h
  | true =>
    rw [operand_of_isFinite hf, FVal.fin.injEq] at h
    obtain ⟨hx, hn⟩ := h
    refine ⟨_, (isFinite_iff _).mp (by rwa [isFinite_flushSubnormal]), hn.symm, ?_⟩
    rw [← hx, ← signBit_flushSubnormal a, signed_signBit_magnitude]

/-- The place of a number in the order is its magnitude, with its sign. -/
theorem orderKey_of_operand {a : Word} {x : Bool} {m : Nat} (h : operand a = .fin x (units m)) :
    orderKey a = some (signedInt x m) := by
  obtain ⟨c, hc, hu, ha⟩ := exists_signed_of_operand h
  have hnan : isNaN a = false := by
    rw [← isNaN_flushSubnormal, ha, isNaN_eq_false_iff, magnitude_signed _ (by omega)]
    omega
  rw [orderKey_of_not_nan hnan, ← signBit_flushSubnormal, ha, signBit_signed _ (by omega),
    magnitude_signed _ (by omega), units_strictMono.injective hu]

/-- A place above that of zero and below that of the infinity is a positive number's. -/
theorem operand_of_orderKey {a : Word} {m : Nat} (h : orderKey a = some (m : Int)) (hpos : 0 < m)
    (hlt : m < 0x7F800000) : operand a = .fin false (units m) := by
  have hnan : isNaN a = false := by
    rw [← Bool.not_eq_true, ← orderKey_eq_none_iff, h]
    simp
  rw [orderKey_of_not_nan hnan, Option.some.injEq] at h
  have hs : signBit a = false := by
    cases hs : signBit a with
    | false => rfl
    | true =>
      rw [hs] at h
      simp only [signedInt, if_true] at h
      omega
  rw [hs, signedInt_of_nonneg (by simp), Int.natCast_inj] at h
  have hfin : isFinite a = true := by
    rw [← isFinite_flushSubnormal, isFinite_iff]
    omega
  rw [operand_of_isFinite hfin, hs, h]

/-- What is above a number that is not negative has a magnitude for its place in the order. -/
theorem exists_orderKey_of_flt {a b : Word} {x : Int} (hx : 0 ≤ x) (ha : orderKey a = some x) (h : flt a b = true) :
    ∃ m : Nat, x < m ∧ orderKey b = some (m : Int) := by
  cases hb : orderKey b with
  | none => simp [flt, ha, hb] at h
  | some y =>
    rw [flt_of_keys ha hb, decide_eq_true_eq] at h
    exact ⟨y.toNat, by omega, by rw [Int.toNat_of_nonneg (by omega)]⟩

/-! ### Comparisons with normal numbers -/

theorem orderKey_of_normal {a : Word} (hnan : isNaN a = false) (hs : signBit a = false) (h : 2 ^ 23 ≤ magnitude a) :
    orderKey a = some (magnitude a : Int) := by
  rw [orderKey_of_not_nan hnan, flushSubnormal_of_not ((isSubnormal_eq_false_iff a).mpr (.inr h)), hs]
  rfl

theorem orderKey_silence : orderKey Config.silence = some 0x3A83126F :=
  orderKey_of_normal (by decide) (by decide) (by decide)

theorem orderKey_attackTarget : orderKey Config.attackTarget = some 0x40000000 :=
  orderKey_of_normal (by decide) (by decide) (by decide)

theorem orderKey_attackExit : orderKey Config.attackExit = some 0x40400000 :=
  orderKey_of_normal (by decide) (by decide) (by decide)

theorem orderKey_leastNormal : orderKey 0x00800000 = some 0x00800000 :=
  orderKey_of_normal (by decide) (by decide) (by decide)

/-! ### Strict rounding -/

/-- A number nearer to `d` than to the magnitude after `d` is not rounded above `d`. -/
theorem NearestEven.le_of_below_midpoint {x : ℚ} {c d : Nat} (h : NearestEven x c)
    (hx : 2 * x < units d + units (d + 1)) : c ≤ d := by
  by_contra! hlt
  have hu : (units (d + 1) : ℚ) ≤ units c := by exact_mod_cast units_strictMono.monotone hlt
  have hstep : (units d : ℚ) < units (d + 1) := by exact_mod_cast units_strictMono (Nat.lt_succ_self d)
  have hle := (h d).1
  rw [abs_of_nonpos (a := x - units c) (by linarith)] at hle
  rcases abs_cases (x - units d) with ⟨e, -⟩ | ⟨e, -⟩ <;> linarith

/-- A magnitude above the least normal one is `b` steps of some size, and the magnitude before it one such step less. -/
theorem exists_steps_of_normal {n : Nat} (hn : 2 ^ 23 < n) :
    ∃ j b, 2 ^ 23 < b ∧ units n = b * 2 ^ j ∧ units (n - 1) = (b - 1) * 2 ^ j := by
  obtain ⟨e, m, rfl, hm, he⟩ := exists_binade n
  rcases Nat.lt_or_ge (2 ^ 23) m with hlt | hge
  · refine ⟨e, m, hlt, units_binade hm.le he, ?_⟩
    rw [Nat.add_sub_assoc (by omega), units_binade (by omega) (by omega)]
  · obtain ⟨i, rfl⟩ : ∃ i, e = i + 1 := ⟨e - 1, by omega⟩
    obtain rfl : m = 2 ^ 23 := by omega
    refine ⟨i, 2 ^ 24, by decide, ?_, ?_⟩
    · rw [units_binade (by decide) (.inr le_rfl)]
      ring
    · rw [show (i + 1) * 2 ^ 23 + 2 ^ 23 - 1 = i * 2 ^ 23 + (2 ^ 24 - 1) by omega,
        units_binade (by decide) (.inr (by decide))]

/-- A normal magnitude above the least one, times the largest number below 1, lies nearer to the magnitude before it. -/
theorem below_midpoint_of_normal {n : Nat} (hn : 2 ^ 23 < n) :
    2 * (units 0x3F7FFFFF * units n) < (units (n - 1) + units n) * 2 ^ 149 := by
  obtain ⟨j, b, hb, hu, hpred⟩ := exists_steps_of_normal hn
  have hone : units 0x3F7FFFFF = (2 ^ 24 - 1) * 2 ^ 125 :=
    units_binade (e := 125) (m := 2 ^ 24 - 1) (by decide) (by decide)
  rw [hu, hpred, hone]
  calc 2 * ((2 ^ 24 - 1) * 2 ^ 125 * (b * 2 ^ j))
      _ = 2 * ((2 ^ 24 - 1) * 2 ^ 125 * b) * 2 ^ j := by ring
      _ < (b - 1 + b) * 2 ^ 149 * 2 ^ j := Nat.mul_lt_mul_of_pos_right (by omega) (by positivity)
      _ = ((b - 1) * 2 ^ j + b * 2 ^ j) * 2 ^ 149 := by ring

/-- A result whose rounded magnitude is finite is read as a number of at most that magnitude, the flush included. -/
theorem operand_roundFlush_of_roundMagnitude_le (neg : Bool) {p q c : Nat} (hc : c < 0x7F800000)
    (h : roundMagnitude p q ≤ c) : ∃ d ≤ c, operand (roundFlush neg p q) = .fin neg (units d) := by
  have hm := magnitude_roundRat neg p q
  have hfin : isFinite (roundRat neg p q) = true := (isFinite_iff _).mpr (by omega)
  have hflush := magnitude_flushSubnormal (roundRat neg p q)
  refine ⟨magnitude (flushSubnormal (roundRat neg p q)), by omega, ?_⟩
  rw [roundFlush, operand_flushSubnormal, operand_of_isFinite hfin, signBit_roundRat]

/-- A result of at least a normal magnitude is rounded to one of at least that magnitude, and not flushed. -/
theorem le_magnitude_roundFlush (neg : Bool) {p q c : Nat} (hq : 0 < q) (hn : 2 ^ 23 ≤ c) (hc : c ≤ 0x7F800000)
    (h : units c * q ≤ p) : c ≤ magnitude (roundFlush neg p q) := by
  have hm : c ≤ magnitude (roundRat neg p q) := by
    rw [magnitude_roundRat]
    refine le_min ((nearestEven_roundMagnitude p hq).le_of_units_le ?_) hc
    rw [le_div_iff₀ (by exact_mod_cast hq)]
    exact_mod_cast h
  rwa [roundFlush, flushSubnormal_of_not ((isSubnormal_eq_false_iff _).mpr (.inr (hn.trans hm)))]

/-- The sum of numbers that are not negative, the second no -0. -/
theorem fadd_of_nonneg {k : Nat} {a b : Word} {x : Bool} {m n : Nat} (ha : operand a = .fin x m)
    (hx : x = true → m = 0) (hb : operand b = .fin false n) : fadd k a b = roundFlush false (m + n) 1 := by
  rw [fadd_fin ha hb, signedInt_of_nonneg hx, signedInt_of_nonneg (by simp), ← Nat.cast_add, Int.natAbs_natCast,
    Bool.and_false, decide_eq_false (Int.natCast_nonneg _).not_gt, ite_self]

end Sys2Proof.Machine
end

section
/-! SUPPORT. The envelope commands (R191 to R194): what each writes, ENV_STATUS after it, and what it leaves
unchanged. -/

namespace Sys2Proof.Machine

/-! ### ENV_STATUS (R54) -/

theorem getLsbD_zero_envStatusWord (e : Envelope) : (envStatusWord e).getLsbD 0 = envActive e := by
  rw [envStatusWord, BitVec.getLsbD_append]
  simp

theorem getLsbD_one_envStatusWord (e : Envelope) : (envStatusWord e).getLsbD 1 = envInAttack e := by
  rw [envStatusWord, BitVec.getLsbD_append, BitVec.getLsbD_append]
  simp

theorem inAttackBit_eq (s : State) (v : Fin 8) (u : Fin 2) :
    inAttackBit s v u = fge (readReg s (.env v u .target)) Config.attackTarget :=
  getLsbD_one_envStatusWord _

theorem fge_zeroF_attackTarget : fge Config.zeroF Config.attackTarget = false := by
  rw [fge, fle_of_keys orderKey_attackTarget orderKey_zeroF]
  decide

theorem envActive_zeroF {e : Envelope} (h : e.level = Config.zeroF) : envActive e = false := by
  rw [envActive, h, fgt, flt_of_keys orderKey_silence orderKey_zeroF]
  decide

/-- Level and target +0 give the status 0. -/
theorem envStatusWord_of_zeroF {e : Envelope} (hl : e.level = Config.zeroF) (ht : e.target = Config.zeroF) :
    envStatusWord e = 0 := by
  rw [envStatusWord, envActive_zeroF hl, envInAttack, ht, fge_zeroF_attackTarget]
  rfl

/-! ### The step -/

/-- The exit test of R194: the new level and the old target. -/
def envExits (k : Nat) (e : Envelope) : Bool := fgt (fadd k (envStep k e) e.target) Config.attackExit

theorem envNext_eq (k : Nat) (e : Envelope) : envNext k e =
    { e with
      level := envStep k e
      multiplier := if envExits k e then e.decayMul else e.multiplier
      target := if envExits k e then e.sustainLevel else e.target } := by
  rw [envNext, envExits]
  split <;> rfl

theorem envNext_of_stays {k : Nat} {e : Envelope} (h : envExits k e = false) :
    envNext k e = { e with level := envStep k e } := by
  rw [envNext_eq, h]
  rfl

/-! ### What a command on one envelope leaves unchanged -/

@[simp] theorem readReg_updEnv_self (s : State) (v : Fin 8) (u : Fin 2) (f : Envelope → Envelope) (r : EReg) :
    readReg (s.updVoice v (·.updEnv u f)) (.env v u r) = readEnv (f ((s.voice v).env u)) r := by
  simp [readReg]

/-- An update of an envelope changes the registers of it that it changes, and nothing else. -/
theorem frame_updEnv {regs : List Reg} {s : State} {v : Fin 8} {u : Fin 2} {f : Envelope → Envelope}
    (h : ∀ r, .env v u r ∉ regs → readEnv (f ((s.voice v).env u)) r = readEnv ((s.voice v).env u) r) :
    Frame regs s (s.updVoice v (·.updEnv u f)) := by
  refine ⟨fun q hq => ?_, samePorts_updVoice s v _⟩
  by_cases he : ∃ r, q = .env v u r
  · obtain ⟨r, rfl⟩ := he
    rw [readReg_updEnv_self]
    exact h r hq
  · exact readReg_updEnv_ne s f (not_exists.mp he)

/-- The four registers of R49 that only the host writes are the same. -/
def SameSettings (e e' : Envelope) : Prop :=
  e'.attackMul = e.attackMul ∧ e'.decayMul = e.decayMul ∧ e'.sustainLevel = e.sustainLevel ∧
    e'.releaseMul = e.releaseMul

theorem frame_envDynamicRegs {s : State} {v : Fin 8} {u : Fin 2} {f : Envelope → Envelope}
    (h : SameSettings ((s.voice v).env u) (f ((s.voice v).env u))) :
    Frame (envDynamicRegs v u) s (s.updVoice v (·.updEnv u f)) := by
  obtain ⟨hattack, hdecay, hsustain, hrelease⟩ := h
  refine frame_updEnv fun r hr => ?_
  cases r with
  | attackMul => exact hattack
  | decayMul => exact hdecay
  | sustainLevel => exact hsustain
  | releaseMul => exact hrelease
  | level | target | multiplier | status => simp [envDynamicRegs] at hr

/-! ### The bump of ENV_ATTACK -/

theorem fadd_silence_silence (k : Nat) : fadd k Config.silence Config.silence = 0x3B03126F := by
  have hs : operand Config.silence = .fin false (units 0x3A83126F) :=
    operand_of_orderKey orderKey_silence (by decide) (by decide)
  have hsum : units 0x3A83126F + units 0x3A83126F = units 0x3B03126F := by decide
  rw [fadd_of_nonneg hs (by simp) hs, hsum, roundFlush, roundRat_units false (by decide),
    flushSubnormal_of_not (by decide)]
  rfl

theorem envAttack_level (k : Nat) (e : Envelope) : (envAttack k e).level = fadd k e.level 0x3B03126F := by
  rw [envAttack, fadd_silence_silence]

/-- A level that is not negative, be it -0 or +infinity, is bumped to a number that is not below the bump. -/
theorem le_magnitude_bumped (k : Nat) {a : Word} (h : fge a Config.zeroF = true) :
    let r := fadd k a 0x3B03126F
    isNaN r = false ∧ signBit r = false ∧ 0x3B03126F ≤ magnitude r := by
  obtain ⟨hnan, hsign⟩ := (fge_zeroF_iff a).mp h
  have hb : operand (0x3B03126F : Word) = .fin false (units 0x3B03126F) :=
    operand_of_orderKey (orderKey_of_normal (by decide) (by decide) (by decide)) (by decide) (by decide)
  cases hf : isFinite a with
  | true =>
    dsimp only
    rw [fadd_of_nonneg (operand_of_isFinite hf) (by simpa using hsign) hb]
    exact ⟨isNaN_roundFlush .., signBit_roundFlush ..,
      le_magnitude_roundFlush false Nat.one_pos (by decide) (by decide) (by omega)⟩
  | false =>
    have hi : isInf a = true := (isNaN_or_isInf_of_not_finite hf).resolve_left (by simp [hnan])
    have hpos : signBit a = false := by
      rw [flushSubnormal_of_not_finite hf, (isInf_iff a).mp hi] at hsign
      simpa using hsign
    have hsum : fadd k a 0x3B03126F = infOf false := by
      rw [fadd, operand_of_isInf hi, hb, hpos]
      rfl
    rw [hsum]
    decide

theorem isNaN_fadd_of_left {k : Nat} {a b : Word} (h : isNaN a = true) : isNaN (fadd k a b) = true := by
  rw [fadd_nan_left (operand_of_isNaN h), isNaN_quietNaN]

theorem fgt_bumped_silence (k : Nat) {a : Word} (h : fge a Config.zeroF = true) :
    fgt (fadd k a 0x3B03126F) Config.silence = true := by
  obtain ⟨hnan, hs, hm⟩ := le_magnitude_bumped k h
  rw [fgt, flt_of_keys orderKey_silence (orderKey_of_normal hnan hs (by omega)), decide_eq_true_eq]
  omega

/-! ### The statements -/

theorem commandWord_envReset : CommandWord 0x08 true true false 1 (fun w _ _ => .envReset (vField w) (uField w)) :=
  commandWord_of_arm (fun w h => by simp only [dataWords, h]) (fun w d0 d1 h => by simp only [decodeCmd, h])

theorem commandWord_envAttack : CommandWord 0x09 true true false 1 (fun w _ _ => .envAttack (vField w) (uField w)) :=
  commandWord_of_arm (fun w h => by simp only [dataWords, h]) (fun w d0 d1 h => by simp only [decodeCmd, h])

theorem commandWord_envRelease : CommandWord 0x0A true true false 1 (fun w _ _ => .envRelease (vField w) (uField w)) :=
  commandWord_of_arm (fun w h => by simp only [dataWords, h]) (fun w d0 d1 h => by simp only [decodeCmd, h])

theorem commandWord_envNext : CommandWord 0x0B true true false 1 (fun w _ _ => .envNext (vField w) (uField w)) :=
  commandWord_of_arm (fun w h => by simp only [dataWords, h]) (fun w d0 d1 h => by simp only [decodeCmd, h])

/-- Settles O22: the three registers are written +0, and the status follows from level and target. -/
theorem envResetClearsDynamicState : Obligations.EnvResetClearsDynamicState := by
  unfold Obligations.EnvResetClearsDynamicState
  refine ⟨commandWord_envReset, fun s v u => ⟨_, rfl, fun r hr => ?_, frame_envDynamicRegs ⟨rfl, rfl, rfl, rfl⟩⟩⟩
  simp only [envDynamicRegs, List.mem_cons, List.not_mem_nil, or_false] at hr
  rcases hr with rfl | rfl | rfl | rfl <;> rw [readReg_updEnv_self]
  · rfl
  · rfl
  · rfl
  · exact envStatusWord_of_zeroF rfl rfl

/-- Settles O23: the bump is twice SILENCE, and a level that is not negative is not below it after the bump. -/
theorem envAttackEntersAttack : Obligations.EnvAttackEntersAttack := by
  unfold Obligations.EnvAttackEntersAttack
  refine ⟨commandWord_envAttack, fadd_silence_silence, fun s v u =>
    ⟨s.updVoice v (·.updEnv u (envAttack s.freeDraws)), rfl, ?_, ?_, ?_, ?_, getLsbD_zero_envStatusWord _, fun h => ?_,
      fun h => ?_, frame_envDynamicRegs ⟨rfl, rfl, rfl, rfl⟩⟩⟩
  · rw [readReg_updEnv_self]
    exact envAttack_level ..
  · rw [readReg_updEnv_self]
    rfl
  · rw [readReg_updEnv_self]
    rfl
  · rw [inAttackBit_eq, readReg_updEnv_self]
    exact (fle_of_keys orderKey_attackTarget orderKey_attackTarget).trans (by decide)
  · rw [readReg_updEnv_self, readEnv, getLsbD_zero_envStatusWord, envActive, envAttack_level]
    exact fgt_bumped_silence _ h
  · rw [readReg_updEnv_self, readEnv, envAttack_level]
    exact isNaN_fadd_of_left h

/-- Settles O24: target and multiplier are written, and the status's `ACTIVE` follows from the level. -/
theorem envReleaseKeepsLevel : Obligations.EnvReleaseKeepsLevel := by
  unfold Obligations.EnvReleaseKeepsLevel
  refine ⟨commandWord_envRelease, fun s v u => ⟨s.updVoice v (·.updEnv u envRelease), rfl, ?_, ?_, ?_, ?_,
    frame_updEnv fun r hr => ?_⟩⟩
  · rw [readReg_updEnv_self]
    rfl
  · rw [readReg_updEnv_self]
    rfl
  · rw [inAttackBit_eq, readReg_updEnv_self]
    exact fge_zeroF_attackTarget
  · rw [readReg_updEnv_self, readReg, readEnv, readEnv, getLsbD_zero_envStatusWord, getLsbD_zero_envStatusWord]
    rfl
  · cases r with
    | target | multiplier | status => simp at hr
    | level | attackMul | decayMul | sustainLevel | releaseMul => rfl

/-- Settles O25: the equation of the step, register by register. -/
theorem envNextStepsAndExits : Obligations.EnvNextStepsAndExits := by
  unfold Obligations.EnvNextStepsAndExits
  refine ⟨commandWord_envNext, fun s v u => ⟨s.updVoice v (·.updEnv u (envNext s.freeDraws)), rfl, ?_⟩⟩
  have hframe : Frame (envDynamicRegs v u) s (s.updVoice v (·.updEnv u (envNext s.freeDraws))) :=
    frame_envDynamicRegs (by rw [envNext_eq]; exact ⟨rfl, rfl, rfl, rfl⟩)
  simp only [readReg_updEnv_self]
  rw [envNext_eq]
  exact ⟨rfl, rfl, rfl, hframe⟩

end Sys2Proof.Machine
end

section
/-! SUPPORT. A release (R193, R195) falls: the product with a multiplier below 1 rounds below a normal level, so that
magnitudes fall until the level is not above SILENCE. -/

namespace Sys2Proof.Machine

/-! ### A step towards +0 -/

section Release

variable {k : Nat} {a b : Word} {m n : Nat}

/-- A number that an operand is read as needs no rounding, and the flush leaves it what it is. -/
theorem operand_roundFlush_of_operand (h : operand a = .fin false n) :
    operand (roundFlush false n 1) = .fin false n := by
  obtain ⟨m, hm, rfl, ha⟩ := exists_signed_of_operand h
  rw [roundFlush, roundRat_units false hm.le, ← ha, flushSubnormal_idem, operand_flushSubnormal, h]

theorem operand_fadd_zeroF (h : operand a = .fin false n) : operand (fadd k a Config.zeroF) = .fin false n := by
  rw [fadd_of_nonneg h (by simp) operand_zeroF]
  exact operand_roundFlush_of_operand h

theorem operand_fsub_zeroF (h : operand a = .fin false n) : operand (fsub k a Config.zeroF) = .fin false n := by
  rw [fsub_fin h operand_zeroF]
  simpa [signedInt, (Int.natCast_nonneg n).not_gt] using operand_roundFlush_of_operand h

/-- A multiplier below 1 lowers the magnitude of a normal number above the least one (R195). -/
theorem operand_fmul_lt (ha : operand a = .fin false (units m)) (hm : m < 0x3F800000)
    (hb : operand b = .fin false (units n)) (hn : 2 ^ 23 < n) (hlt : n < 0x7F800000) :
    ∃ d < n, operand (fmul k a b) = .fin false (units d) := by
  have hx : 2 * (units m * units n) < (units (n - 1) + units n) * 2 ^ 149 :=
    (Nat.mul_le_mul_left 2 (Nat.mul_le_mul_right _ (units_strictMono.monotone (Nat.le_of_lt_succ hm)))).trans_lt
      (below_midpoint_of_normal hn)
  have hround : roundMagnitude (units m * units n) (2 ^ 149) ≤ n - 1 := by
    refine (nearestEven_roundMagnitude _ (Nat.two_pow_pos 149)).le_of_below_midpoint ?_
    rw [Nat.sub_add_cancel (by omega), ← mul_div_assoc, div_lt_iff₀ (by positivity)]
    exact_mod_cast hx
  obtain ⟨d, hd, hop⟩ := operand_roundFlush_of_roundMagnitude_le false (by omega) hround
  exact ⟨d, by omega, by rw [fmul_fin ha hb]; exact hop⟩

end Release

/-! ### A release -/

/-- A release under way (R193, R195), at a level that is read as the number of magnitude `n`, at most 3. -/
structure Releasing (n : Nat) (e : Envelope) : Prop where
  target : e.target = Config.zeroF
  multiplier : ∃ m < 0x3F800000, operand e.multiplier = .fin false (units m)
  level : operand e.level = .fin false (units n)
  le_exit : n ≤ 0x40400000

/-- From a level above the least normal number, a step of a release goes to a lower one, and is a release still. -/
theorem Releasing.step {n : Nat} {e : Envelope} (h : Releasing n e) (hn : 2 ^ 23 < n) (k : Nat) :
    ∃ d < n, envNext k e = { e with level := envStep k e } ∧ Releasing d (envNext k e) := by
  obtain ⟨ht, ⟨m, hm, hmul⟩, hl, hexit⟩ := h
  obtain ⟨d, hd, hprod⟩ := operand_fmul_lt (k := k) hmul hm (operand_fsub_zeroF (k := k) hl) hn (by omega)
  have hstep : operand (envStep k e) = .fin false (units d) := by
    rw [envStep, ht]
    exact operand_fadd_zeroF hprod
  have hsum : orderKey (fadd k (envStep k e) e.target) = some (d : Int) := by
    rw [ht]
    exact orderKey_of_operand (operand_fadd_zeroF hstep)
  have hstays : envExits k e = false := by
    rw [envExits, fgt, flt_of_keys orderKey_attackExit hsum, decide_eq_false_iff_not]
    omega
  have hnext := envNext_of_stays hstays
  exact ⟨d, hd, hnext, by rw [hnext]; exact ⟨ht, ⟨m, hm, hmul⟩, hstep, by omega⟩⟩

theorem Releasing.envActive_eq {n : Nat} {e : Envelope} (h : Releasing n e) :
    envActive e = decide (0x3A83126F < n) := by
  rw [envActive, fgt, flt_of_keys orderKey_silence (orderKey_of_operand h.level), decide_eq_decide]
  exact Nat.cast_lt (α := Int) (m := 0x3A83126F)

/-- While it is active the level's magnitude falls, so a release ends inactive. -/
theorem Releasing.exists_inactive (k : Nat) {n : Nat} {e : Envelope} (h : Releasing n e) :
    ∃ i, envActive ((envNext k)^[i] e) = false := by
  induction n using Nat.strong_induction_on generalizing e with
  | _ n ih =>
    rcases Nat.lt_or_ge 0x3A83126F n with hactive | hsilent
    · obtain ⟨d, hd, -, hrel⟩ := h.step (by omega) k
      obtain ⟨i, hi⟩ := ih d hd hrel
      exact ⟨i + 1, hi⟩
    · exact ⟨0, by simpa [h.envActive_eq] using hsilent⟩

/-- The premises of R195 are those of a release under way. -/
theorem exists_releasing {e : Envelope} (ht : e.target = Config.zeroF) (hm0 : flt Config.zeroF e.multiplier = true)
    (hm1 : flt e.multiplier Config.oneF = true) (hlo : flt 0x00800000 e.level = true)
    (hhi : fle e.level Config.attackExit = true) : ∃ n, 2 ^ 23 < n ∧ Releasing n e := by
  obtain ⟨m, hm, hmul⟩ := exists_orderKey_of_flt le_rfl orderKey_zeroF hm0
  obtain ⟨n, hn, hl⟩ := exists_orderKey_of_flt (by decide) orderKey_leastNormal hlo
  rw [flt_of_keys hmul orderKey_oneF, decide_eq_true_eq] at hm1
  rw [fle_of_keys hl orderKey_attackExit, decide_eq_true_eq] at hhi
  exact ⟨n, by omega, ht, ⟨m, by omega, operand_of_orderKey hmul (by omega) (by omega)⟩,
    operand_of_orderKey hl (by omega) (by omega), by omega⟩

/-- Settles O27: the product with a multiplier below 1 rounds below a normal level, and +0 as the target adds
nothing. -/
theorem releaseEndsInSilence : Obligations.ReleaseEndsInSilence := by
  unfold Obligations.ReleaseEndsInSilence
  intro k e ht hm0 hm1 hlo hhi
  obtain ⟨n, hn, h⟩ := exists_releasing ht hm0 hm1 hlo hhi
  obtain ⟨d, hd, hnext, hrel⟩ := h.step hn k
  refine ⟨?_, by rw [hnext], by rw [hnext], h.exists_inactive k⟩
  rw [flt_of_keys (orderKey_of_operand hrel.level) (orderKey_of_operand h.level), decide_eq_true_eq]
  exact Int.ofNat_lt.mpr hd

end Sys2Proof.Machine
end

section
/-! SUPPORT. What can bring an envelope's target to 2.0 (R190): no command but ENV_ATTACK and a write of the target, so
long as the sustain level, which the attack exit copies (R194), is below 2.0. -/

namespace Sys2Proof.Machine

/-- Neither the target nor the sustain level is 2.0 or more. -/
def BelowAttack (e : Envelope) : Prop :=
  fge e.target Config.attackTarget = false ∧ fge e.sustainLevel Config.attackTarget = false

/-! ### The operations on one envelope -/

theorem belowAttack_envReset {e : Envelope} (h : BelowAttack e) : BelowAttack (envReset e) :=
  ⟨fge_zeroF_attackTarget, h.2⟩

theorem belowAttack_envRelease {e : Envelope} (h : BelowAttack e) : BelowAttack (envRelease e) :=
  ⟨fge_zeroF_attackTarget, h.2⟩

/-- A step keeps the target, or the attack exit makes it the sustain level. -/
theorem belowAttack_envNext {e : Envelope} (h : BelowAttack e) (k : Nat) : BelowAttack (envNext k e) := by
  rw [envNext_eq]
  cases envExits k e with
  | true => exact ⟨h.2, h.2⟩
  | false => exact h

/-! ### The operations on one voice -/

/-- An operation on a voice that brings no target of its envelopes to 2.0. -/
def KeepsBelowAttack (f : Voice → Voice) : Prop :=
  ∀ (vo : Voice) (u : Fin 2), BelowAttack (vo.env u) → BelowAttack ((f vo).env u)

/-- It is enough that the operation does so to each envelope. -/
theorem keepsBelowAttack_of_envs {f : Voice → Voice} (h0 : ∀ vo, BelowAttack vo.env0 → BelowAttack (f vo).env0)
    (h1 : ∀ vo, BelowAttack vo.env1 → BelowAttack (f vo).env1) : KeepsBelowAttack f
  | vo, 0 => h0 vo
  | vo, 1 => h1 vo

/-- An operation that leaves the envelopes alone. -/
theorem keepsBelowAttack_of_env_eq {f : Voice → Voice} (h : ∀ vo u, (f vo).env u = vo.env u) : KeepsBelowAttack f :=
  fun vo u hvo => (h vo u).symm ▸ hvo

theorem keepsBelowAttack_updEnv {f : Envelope → Envelope} (w : Fin 2) (h : ∀ e, BelowAttack e → BelowAttack (f e)) :
    KeepsBelowAttack (·.updEnv w f) := by
  intro vo u hvo
  by_cases hu : u = w
  · subst hu
    rw [Voice.updEnv_env_self]
    exact h _ hvo
  · rwa [Voice.updEnv_env_ne _ _ hu]

theorem keepsBelowAttack_ite {c : Voice → Bool} {f g : Voice → Voice} (hf : KeepsBelowAttack f)
    (hg : KeepsBelowAttack g) : KeepsBelowAttack fun vo => if c vo then f vo else g vo := by
  intro vo u h
  dsimp only
  split
  · exact hf vo u h
  · exact hg vo u h

theorem keepsBelowAttack_id : KeepsBelowAttack fun vo => vo := fun _ _ h => h

theorem keepsBelowAttack_voiceReset : KeepsBelowAttack voiceReset :=
  keepsBelowAttack_of_envs (fun _ => belowAttack_envReset) fun _ => belowAttack_envReset

theorem keepsBelowAttack_voiceRender (k : Nat) (noise : Word) : KeepsBelowAttack (voiceRender k noise) :=
  keepsBelowAttack_of_envs (fun _ h => belowAttack_envNext h k) fun _ h => h

theorem keepsBelowAttack_voiceCtrl (k : Nat) (sampleRate : Word) : KeepsBelowAttack (voiceCtrl k sampleRate) :=
  keepsBelowAttack_of_envs (fun _ h => h) fun _ h => belowAttack_envNext h k

theorem keepsBelowAttack_lfoPushVoice (k : Nat) (g : Globals) : KeepsBelowAttack (lfoPushVoice k g) :=
  keepsBelowAttack_ite (f := fun vo => voicePeriod k g.pitchBend g.detune (voiceCtrl k g.sampleRate
      { vo with
        osc0 := { vo.osc0 with modulation := g.vibratoMod }
        osc1 := { vo.osc1 with modulation := g.pwmMod }
        filterMod := g.filterZip }))
    (keepsBelowAttack_of_envs (fun _ h => h) fun _ h => belowAttack_envNext h k) keepsBelowAttack_id

theorem keepsBelowAttack_blockBeginVoice (k : Nat) (g : Globals) : KeepsBelowAttack (blockBeginVoice k g) :=
  keepsBelowAttack_ite (keepsBelowAttack_of_envs (fun _ h => h) fun _ h => h) keepsBelowAttack_id

theorem keepsBelowAttack_blockEndVoice : KeepsBelowAttack blockEndVoice :=
  keepsBelowAttack_ite keepsBelowAttack_id
    (keepsBelowAttack_of_envs (fun _ h => belowAttack_envReset h) fun _ h => h)

theorem keepsBelowAttack_sampleVoice (k : Nat) (noise : Word) : KeepsBelowAttack (sampleVoice k noise) :=
  keepsBelowAttack_ite (keepsBelowAttack_voiceRender k noise) keepsBelowAttack_id

/-! ### The commands -/

/-- The envelope `u` of voice `v` is below 2.0 in the state. -/
def BelowAttackAt (v : Fin 8) (u : Fin 2) (s : State) : Prop := BelowAttack ((s.voice v).env u)

section Commands

variable {v : Fin 8} {u : Fin 2} {s : State}

theorem belowAttackAt_updVoice {f : Voice → Voice} (h : BelowAttackAt v u s) (w : Fin 8) (hf : KeepsBelowAttack f) :
    BelowAttackAt v u (s.updVoice w f) := by
  unfold BelowAttackAt
  by_cases hw : v = w
  · subst hw
    rw [State.updVoice_voice_self]
    exact hf _ u h
  · rwa [State.updVoice_voice_ne s f hw]

theorem belowAttackAt_mapVoices {f : Voice → Voice} (h : BelowAttackAt v u s) (hf : KeepsBelowAttack f) :
    BelowAttackAt v u (s.mapVoices f) := by
  rw [BelowAttackAt, State.mapVoices_voice]
  exact hf _ u h

theorem belowAttackAt_updGlobals (h : BelowAttackAt v u s) (f : Globals → Globals) :
    BelowAttackAt v u (s.updGlobals f) := h

theorem belowAttackAt_lfoTick (h : BelowAttackAt v u s) (k : Nat) : BelowAttackAt v u (lfoTick k s) := by
  unfold lfoTick
  dsimp only
  split
  · exact belowAttackAt_mapVoices (belowAttackAt_updGlobals h _) (keepsBelowAttack_lfoPushVoice k _)
  · exact h

theorem belowAttackAt_sampleStep (h : BelowAttackAt v u s) (k : Nat) : BelowAttackAt v u (sampleStep k s) := by
  unfold sampleStep
  exact belowAttackAt_updGlobals (belowAttackAt_mapVoices (belowAttackAt_updGlobals (belowAttackAt_lfoTick h k) _)
    (keepsBelowAttack_sampleVoice k _)) _

theorem belowAttackAt_regRead (h : BelowAttackAt v u s) (a : Addr) : BelowAttackAt v u (regRead a s) := by
  rcases regRead_cases a s with ⟨-, e⟩ | ⟨r, -, e⟩ <;> rw [e]
  · rwa [BelowAttackAt, raiseIllegal_voice]
  · exact h

/-- Every command but an ENV_ATTACK and a REG_WR keeps an envelope below 2.0. -/
theorem exec_belowAttackAt {i : Instr} (hattack : ∀ w x, i ≠ .envAttack w x) (hwrite : ∀ a value, i ≠ .regWr a value)
    (h : BelowAttackAt v u s) : ∃ t, exec i s = .next t ∧ BelowAttackAt v u t := by
  have hunit {f : Voice → Voice} (w : Fin 8) (hf : ∀ vo x, (f vo).env x = vo.env x) :=
    belowAttackAt_updVoice h w (keepsBelowAttack_of_env_eq hf)
  cases i with
  | envAttack w x => exact absurd rfl (hattack w x)
  | regWr a value => exact absurd rfl (hwrite a value)
  | nop => exact ⟨_, rfl, h⟩
  | noiseReset | noiseNext | lfoReset | gainReset | gainSet _ | gainNext =>
    exact ⟨_, rfl, belowAttackAt_updGlobals h _⟩
  | regRd a => exact ⟨_, rfl, belowAttackAt_regRead h a⟩
  | voiceReset w => exact ⟨_, rfl, belowAttackAt_updVoice h w keepsBelowAttack_voiceReset⟩
  | envReset w x =>
    exact ⟨_, rfl, belowAttackAt_updVoice h w (keepsBelowAttack_updEnv x fun _ => belowAttack_envReset)⟩
  | envRelease w x =>
    exact ⟨_, rfl, belowAttackAt_updVoice h w (keepsBelowAttack_updEnv x fun _ => belowAttack_envRelease)⟩
  | envNext w x =>
    exact ⟨_, rfl, belowAttackAt_updVoice h w (keepsBelowAttack_updEnv x fun _ he => belowAttack_envNext he _)⟩
  | oscReset w x | oscNext w x => exact ⟨_, rfl, hunit w fun vo => Voice.updOsc_env vo x _⟩
  | filtReset w | filtCoef w _ _ | filtRender w _ => exact ⟨_, rfl, hunit w fun vo => Voice.updFilt_env vo _⟩
  | voicePan w | voicePeriod w =>
    exact ⟨_, rfl, belowAttackAt_updVoice h w (keepsBelowAttack_of_envs (fun _ he => he) fun _ he => he)⟩
  | voiceRender w noise => exact ⟨_, rfl, belowAttackAt_updVoice h w (keepsBelowAttack_voiceRender _ noise)⟩
  | voiceCtrl w => exact ⟨_, rfl, belowAttackAt_updVoice h w (keepsBelowAttack_voiceCtrl _ _)⟩
  | lfoTick => exact ⟨_, rfl, belowAttackAt_lfoTick h _⟩
  | sample => exact ⟨_, rfl, belowAttackAt_sampleStep h _⟩
  | blockBegin => exact ⟨_, rfl, belowAttackAt_mapVoices h (keepsBelowAttack_blockBeginVoice _ _)⟩
  | blockEnd => exact ⟨_, rfl, belowAttackAt_mapVoices h keepsBelowAttack_blockEndVoice⟩
  | coreReset => exact ⟨_, rfl, belowAttackAt_mapVoices h keepsBelowAttack_voiceReset⟩

end Commands

/-- A `REG_WR` of another register leaves a target alone, whether it writes or reports. -/
theorem readReg_regWrite_target {v : Fin 8} {u : Fin 2} {a : Addr} (ha : a ≠ (Reg.env v u .target).addr) (value : Word)
    (s : State) : readReg (regWrite a value s) (.env v u .target) = readReg s (.env v u .target) := by
  rcases regWrite_cases a value s with ⟨-, e⟩ | ⟨r, -, -, e⟩ | ⟨r, hr, -, e⟩ <;> rw [e]
  · exact sameRegsExcept_raiseIllegal _ _ s _ (by simp)
  · exact sameRegsExcept_raiseIllegal _ _ s _ (by simp)
  · by_cases hs : r = .glob .status
    · subst hs
      exact sameRegsExcept_writeReg_status s value _ (by simp)
    · exact readReg_writeReg_ne s value (fun h => ha (h ▸ (addr_of_regAt hr).symm)) hs (by simp)

/-- Settles O28: ENV_ATTACK of another envelope and REG_WR of another register leave the target alone; every other
command keeps it, or makes it +0 or the sustain level. -/
theorem onlyEnvAttackEntersAttack : Obligations.OnlyEnvAttackEntersAttack := by
  unfold Obligations.OnlyEnvAttackEntersAttack
  intro i s t v u ht hattack hwrite hs hsustain
  by_cases hia : ∃ w x, i = .envAttack w x
  · obtain ⟨w, x, rfl⟩ := hia
    cases ht
    rw [← hs]
    refine congrArg (·.getLsbD 1) (readReg_updEnv_ne s _ ?_)
    rintro r ⟨⟩
    exact hattack rfl
  by_cases hiw : ∃ a value, i = .regWr a value
  · obtain ⟨a, value, rfl⟩ := hiw
    cases ht
    rw [inAttackBit_eq, readReg_regWrite_target (fun h => hwrite value (h ▸ rfl)), ← inAttackBit_eq, hs]
  · push Not at hia hiw
    rw [inAttackBit_eq] at hs ⊢
    obtain ⟨t', ht', hbelow⟩ := exec_belowAttackAt hia hiw (v := v) (u := u) ⟨hs, hsustain⟩
    obtain rfl : t' = t := by simpa [ht'] using ht
    exact hbelow.1

end Sys2Proof.Machine
end

section
/-! SUPPORT. The oscillator commands (R211, R212): which branch a sample takes, what each branch writes, what a command on
one oscillator leaves unchanged, and why a restart after OSC_RESET does not read the old `phase_max` (R217). -/

namespace Sys2Proof.Machine

/-! ### What a command on one oscillator leaves unchanged -/

@[simp] theorem readReg_updOsc_self (s : State) (v : Fin 8) (u : Fin 2) (f : Oscillator → Oscillator) (r : OReg) :
    readReg (s.updVoice v (·.updOsc u f)) (.osc v u r) = readOsc (f ((s.voice v).osc u)) r := by
  simp [readReg]

/-- An update of an oscillator changes the registers of it that it changes, and nothing else. -/
theorem frame_updOsc {regs : List Reg} {s : State} {v : Fin 8} {u : Fin 2} {f : Oscillator → Oscillator}
    (h : ∀ r, .osc v u r ∉ regs → readOsc (f ((s.voice v).osc u)) r = readOsc ((s.voice v).osc u) r) :
    Frame regs s (s.updVoice v (·.updOsc u f)) := by
  refine ⟨fun q hq => ?_, samePorts_updVoice s v _⟩
  by_cases ho : ∃ r, q = .osc v u r
  · obtain ⟨r, rfl⟩ := ho
    rw [readReg_updOsc_self]
    exact h r hq
  · exact readReg_updOsc_ne s f (not_exists.mp ho)

/-! ### The branches of OSC_NEXT (R212) -/

/-- The oscillator with its phase advanced by one sample. -/
def oscAdvance (k : Nat) (o : Oscillator) : Oscillator := { o with phase := fadd k o.phase o.phaseInc }

theorem oscNext_of_restarts {k : Nat} {o : Oscillator} (h : fle (fadd k o.phase o.phaseInc) Config.oscT = true) :
    oscNext k o = oscRestart k (oscAdvance k o) :=
  if_pos h

theorem oscNext_of_runs {k : Nat} {o : Oscillator} (h : fle (fadd k o.phase o.phaseInc) Config.oscT = false) :
    oscNext k o = oscResonate k (oscMirror k (oscAdvance k o)) :=
  if_neg (by simp [h])

/-- The mirror writes the phase and its increment alone. -/
theorem oscMirror_eq (k : Nat) (o : Oscillator) : oscMirror k o =
    { o with
      phase := if fgt o.phase o.phaseMax then fsub k (fadd k o.phaseMax o.phaseMax) o.phase else o.phase
      phaseInc := if fgt o.phase o.phaseMax then fneg o.phaseInc else o.phaseInc } := by
  rw [oscMirror]
  split <;> rfl

/-- The three registers of R48 that OSC_NEXT only reads. -/
theorem oscNext_keeps_settings (k : Nat) (o : Oscillator) :
    (oscNext k o).period = o.period ∧ (oscNext k o).amplitude = o.amplitude ∧
      (oscNext k o).modulation = o.modulation := by
  cases h : fle (fadd k o.phase o.phaseInc) Config.oscT with
  | true =>
    rw [oscNext_of_restarts h]
    exact ⟨rfl, rfl, rfl⟩
  | false =>
    rw [oscNext_of_runs h, oscMirror_eq]
    exact ⟨rfl, rfl, rfl⟩

theorem frame_oscNext (s : State) (v : Fin 8) (u : Fin 2) (k : Nat) :
    Frame (oscNextRegs v u) s (s.updVoice v (·.updOsc u (oscNext k))) := by
  obtain ⟨hperiod, hamplitude, hmodulation⟩ := oscNext_keeps_settings k ((s.voice v).osc u)
  refine frame_updOsc fun r hr => ?_
  cases r with
  | period => exact hperiod
  | amplitude => exact hamplitude
  | modulation => exact hmodulation
  | phase | phaseMax | phaseInc | sin0 | sin1 | dsin | dcOffset | out => simp [oscNextRegs, oscResetRegs] at hr

/-! ### OSC_NEXT after OSC_RESET (R217) -/

theorem fadd_zeroF_zeroF (k : Nat) : fadd k Config.zeroF Config.zeroF = Config.zeroF := by
  rw [fadd_of_nonneg operand_zeroF (by simp) operand_zeroF]
  exact roundFlush_zero false

theorem fle_zeroF_oscT : fle Config.zeroF Config.oscT = true := by
  have hT : orderKey Config.oscT = some 0x3F490FDB := orderKey_of_normal (by decide) (by decide) (by decide)
  rw [fle_of_keys orderKey_zeroF hT]
  decide

/-- After OSC_RESET the phase advances from +0 to +0, which is not past `OSC_T`. -/
theorem oscNext_oscReset (k : Nat) (o : Oscillator) :
    oscNext k (oscReset o) = oscRestart k (oscAdvance k (oscReset o)) :=
  oscNext_of_restarts ((congrArg (fle · Config.oscT) (fadd_zeroF_zeroF k)).trans fle_zeroF_oscT)

/-- The restart writes `phase_max` without reading it. -/
theorem oscNext_oscReset_phaseMax (k : Nat) (o : Oscillator) (p : Word) :
    oscNext k (oscReset { o with phaseMax := p }) = oscNext k (oscReset o) := by
  rw [oscNext_oscReset, oscNext_oscReset]
  rfl

theorem eq_of_readOsc_eq_except_phaseMax {o o' : Oscillator} (h : ∀ r ≠ .phaseMax, readOsc o' r = readOsc o r) :
    o' = { o with phaseMax := o'.phaseMax } := by
  cases o'
  rw [Oscillator.mk.injEq]
  exact ⟨h .period (by simp), h .amplitude (by simp), h .modulation (by simp), h .phase (by simp), rfl,
    h .phaseInc (by simp), h .sin0 (by simp), h .sin1 (by simp), h .dsin (by simp), h .dcOffset (by simp),
    h .out (by simp)⟩

/-! ### The statements -/

theorem commandWord_oscReset : CommandWord 0x0C true true false 1 (fun w _ _ => .oscReset (vField w) (uField w)) :=
  commandWord_of_arm (fun w h => by simp only [dataWords, h]) (fun w d0 d1 h => by simp only [decodeCmd, h])

theorem commandWord_oscNext : CommandWord 0x0D true true false 1 (fun w _ _ => .oscNext (vField w) (uField w)) :=
  commandWord_of_arm (fun w h => by simp only [dataWords, h]) (fun w d0 d1 h => by simp only [decodeCmd, h])

/-- Settles O29: the six registers are written +0, and the other five are not written. -/
theorem oscResetClearsRunningState : Obligations.OscResetClearsRunningState := by
  unfold Obligations.OscResetClearsRunningState
  refine ⟨commandWord_oscReset, fun s v u =>
    ⟨s.updVoice v (·.updOsc u oscReset), rfl, fun r hr => ?_, frame_updOsc fun r hr => ?_⟩⟩
  · simp only [oscResetRegs, List.mem_cons, List.not_mem_nil, or_false] at hr
    rcases hr with rfl | rfl | rfl | rfl | rfl | rfl <;> rw [readReg_updOsc_self] <;> rfl
  · cases r with
    | phase | phaseInc | sin0 | sin1 | dsin | dcOffset => simp [oscResetRegs] at hr
    | period | amplitude | modulation | phaseMax | out => rfl

/-- Settles O30: the equation of the branch that the advanced phase takes, register by register. -/
theorem oscNextProducesOneSample : Obligations.OscNextProducesOneSample := by
  unfold Obligations.OscNextProducesOneSample
  refine ⟨commandWord_oscNext, fun s v u => ⟨s.updVoice v (·.updOsc u (oscNext s.freeDraws)), rfl,
    frame_oscNext s v u _, fun hrestarts => ?_, fun hruns => ?_⟩⟩
  · simp only [readReg_updOsc_self]
    rw [oscNext_of_restarts hrestarts]
    exact ⟨rfl, rfl, rfl, rfl, rfl, rfl, rfl, rfl⟩
  · simp only [readReg_updOsc_self]
    rw [oscNext_of_runs hruns, oscMirror_eq]
    exact ⟨rfl, rfl, rfl, rfl, rfl, rfl, rfl, rfl⟩

/-- Settles O31: the oscillator restarts, and a restart writes `phase_max` without reading it; both commands leave every
other register alone. -/
theorem oscResetHidesPhaseMax : Obligations.OscResetHidesPhaseMax := by
  unfold Obligations.OscResetHidesPhaseMax
  intro s s' v u hs hk
  refine ⟨_, _, rfl, rfl, fun q => ?_⟩
  by_cases ho : ∃ r, q = .osc v u r
  · obtain ⟨r, rfl⟩ := ho
    have hosc : (s'.voice v).osc u = { (s.voice v).osc u with phaseMax := ((s'.voice v).osc u).phaseMax } :=
      eq_of_readOsc_eq_except_phaseMax fun r hr => hs (.osc v u r) (by simpa using hr)
    simp only [readReg_updOsc_self, State.updVoice_voice_self, Voice.updOsc_osc_self, State.updVoice_freeDraws, hk]
    rw [hosc, oscNext_oscReset_phaseMax]
  · have hne := not_exists.mp ho
    rw [readReg_updOsc_ne _ _ hne, readReg_updOsc_ne _ _ hne, readReg_updOsc_ne _ _ hne, readReg_updOsc_ne _ _ hne]
    exact hs q (by simpa using hne .phaseMax)

end Sys2Proof.Machine
end

section
/-! SUPPORT. The filter commands (R231 to R233): what a command on one filter leaves unchanged, and which registers of it
each command writes. -/

namespace Sys2Proof.Machine

/-! ### What a command on one filter leaves unchanged -/

@[simp] theorem readReg_updFilt_self (s : State) (v : Fin 8) (f : Filter → Filter) (r : FReg) :
    readReg (s.updVoice v (·.updFilt f)) (.filt v r) = readFilt (f (s.voice v).filt) r := by
  simp [readReg]

/-- An update of a filter changes the registers of it that it changes, and nothing else. -/
theorem frame_updFilt {regs : List Reg} {s : State} {v : Fin 8} {f : Filter → Filter}
    (h : ∀ r, .filt v r ∉ regs → readFilt (f (s.voice v).filt) r = readFilt (s.voice v).filt r) :
    Frame regs s (s.updVoice v (·.updFilt f)) := by
  refine ⟨fun q hq => ?_, samePorts_updVoice s v _⟩
  by_cases hfilt : ∃ r, q = .filt v r
  · obtain ⟨r, rfl⟩ := hfilt
    rw [readReg_updFilt_self]
    exact h r hq
  · exact readReg_updFilt_ne s f (not_exists.mp hfilt)

theorem frame_filtReset (s : State) (v : Fin 8) :
    Frame (filtResetRegs v) s (s.updVoice v (·.updFilt filtReset)) := by
  refine frame_updFilt fun r hr => ?_
  cases r with
  | out => rfl
  | g | k | a1 | a2 | a3 | ic1eq | ic2eq => simp [filtResetRegs, filtCoefRegs] at hr

/-- FILT_COEF does not touch the integrators (R232). -/
theorem frame_filtCoef (s : State) (v : Fin 8) (k : Nat) (sampleRate cutoff q : Word) :
    Frame (filtCoefRegs v) s (s.updVoice v (·.updFilt (filtCoef k sampleRate cutoff q))) := by
  refine frame_updFilt fun r hr => ?_
  cases r with
  | ic1eq | ic2eq | out => rfl
  | g | k | a1 | a2 | a3 => simp [filtCoefRegs] at hr

/-- FILT_RENDER only reads the coefficients (R233). -/
theorem frame_filtRender (s : State) (v : Fin 8) (k : Nat) (x : Word) :
    Frame [.filt v .ic1eq, .filt v .ic2eq, .filt v .out] s (s.updVoice v (·.updFilt (filtRender k x))) := by
  refine frame_updFilt fun r hr => ?_
  cases r with
  | g | k | a1 | a2 | a3 => rfl
  | ic1eq | ic2eq | out => simp at hr

/-! ### The statements -/

theorem commandWord_filtReset : CommandWord 0x10 true false false 1 (fun w _ _ => .filtReset (vField w)) :=
  commandWord_of_arm (fun w h => by simp only [dataWords, h]) (fun w d0 d1 h => by simp only [decodeCmd, h])

theorem commandWord_filtCoef :
    CommandWord 0x11 true false false 3 (fun w cutoff q => .filtCoef (vField w) cutoff q) :=
  commandWord_of_arm (fun w h => by simp only [dataWords, h]) (fun w d0 d1 h => by simp only [decodeCmd, h])

theorem commandWord_filtRender : CommandWord 0x12 true false false 2 (fun w x _ => .filtRender (vField w) x) :=
  commandWord_of_arm (fun w h => by simp only [dataWords, h]) (fun w d0 d1 h => by simp only [decodeCmd, h])

/-- Settles O32: the seven registers are written +0, and FILT_OUT is not written. -/
theorem filtResetClearsCoefficientsAndIntegrators : Obligations.FiltResetClearsCoefficientsAndIntegrators := by
  unfold Obligations.FiltResetClearsCoefficientsAndIntegrators
  refine ⟨commandWord_filtReset, fun s v =>
    ⟨s.updVoice v (·.updFilt filtReset), rfl, fun r hr => ?_, frame_filtReset s v⟩⟩
  simp only [filtResetRegs, filtCoefRegs, List.cons_append, List.nil_append, List.mem_cons, List.not_mem_nil,
    or_false] at hr
  rcases hr with rfl | rfl | rfl | rfl | rfl | rfl | rfl <;> rw [readReg_updFilt_self] <;> rfl

/-- Settles O33: each coefficient is written as the rule computes it from those before it. -/
theorem filtCoefComputesCoefficients : Obligations.FiltCoefComputesCoefficients := by
  unfold Obligations.FiltCoefComputesCoefficients
  refine ⟨commandWord_filtCoef, fun s v cutoff q =>
    ⟨s.updVoice v (·.updFilt (filtCoef s.freeDraws s.g.sampleRate cutoff q)), rfl, ?_⟩⟩
  simp only [readReg_updFilt_self]
  exact ⟨rfl, rfl, rfl, rfl, rfl, frame_filtCoef s v _ _ cutoff q⟩

/-- Settles O34: both stages read the old integrators, and the second stage's value is the output. -/
theorem filtRenderFiltersOneSample : Obligations.FiltRenderFiltersOneSample := by
  unfold Obligations.FiltRenderFiltersOneSample
  refine ⟨commandWord_filtRender, fun s v x =>
    ⟨s.updVoice v (·.updFilt (filtRender s.freeDraws x)), rfl, ?_⟩⟩
  simp only [readReg_updFilt_self]
  exact ⟨rfl, rfl, rfl, frame_filtRender s v _ x⟩

end Sys2Proof.Machine
end

section
/-! SUPPORT. The voice commands (R250 to R254): each as a sequence of updates of single units, so that what it reads and
what it leaves unchanged follows from the laws of the units. -/

namespace Sys2Proof.Machine

/-! ### Updates of one voice in sequence -/

theorem Voices.set_set (vs : Voices) (v : Fin 8) (vo vo' : Voice) : (vs.set v vo).set v vo' = vs.set v vo' := by
  fin_cases v <;> rfl

theorem State.updVoice_updVoice (s : State) (v : Fin 8) (f g : Voice → Voice) :
    (s.updVoice v f).updVoice v g = s.updVoice v fun vo => g (f vo) := by
  rw [State.updVoice, State.updVoice, State.updVoice, Voices.set_set, Voices.get_set_self]

/-- Only what the update makes of the voice as it is counts. -/
theorem State.updVoice_congr {s : State} {v : Fin 8} {f g : Voice → Voice} (h : f (s.voice v) = g (s.voice v)) :
    s.updVoice v f = s.updVoice v g :=
  congrArg (fun vo => { s with voices := s.voices.set v vo }) h

theorem Frame.trans {l l' : List Reg} {s t u : State} (h : Frame l s t) (h' : Frame l' t u) : Frame (l ++ l') s u :=
  ⟨h.1.trans h'.1, h.2.trans h'.2⟩

theorem Frame.mono {l l' : List Reg} {s t : State} (h : Frame l s t) (hl : l ⊆ l') : Frame l' s t :=
  ⟨fun r hr => h.1 r fun hmem => hr (hl hmem), h.2⟩

/-! ### Updates of a voice's own registers (R47) -/

@[simp] theorem readReg_updVoice_record (s : State) (v : Fin 8) (f : Voice → Voice) (r : VReg) :
    readReg (s.updVoice v f) (.voice v r) = readVoice (f (s.voice v)) r := by
  simp [readReg]

/-- An update of a voice that keeps its units changes the registers of the voice record that it changes, and nothing
else. -/
theorem frame_updVoice_record {regs : List Reg} {s : State} {v : Fin 8} {f : Voice → Voice}
    (h : ∀ r, .voice v r ∉ regs → readVoice (f (s.voice v)) r = readVoice (s.voice v) r)
    (hosc : ∀ vo u, (f vo).osc u = vo.osc u := by intros; rfl)
    (henv : ∀ vo u, (f vo).env u = vo.env u := by intros; rfl)
    (hfilt : ∀ vo, (f vo).filt = vo.filt := by intros; rfl) :
    Frame regs s (s.updVoice v f) :=
  ⟨fun _ hq => readReg_updVoice_congr s (fun r e => h r (e ▸ hq)) (fun u _ _ => hosc _ u) (fun u _ _ => henv _ u)
    (fun _ _ => hfilt _), samePorts_updVoice s v f⟩

/-- What VOICE_RESET does outside the units (R250). -/
def Voice.resetRecord (vo : Voice) : Voice :=
  { vo with note := 0, saw := Config.zeroF, panLeft := Config.panReset, panRight := Config.panReset }

/-- What VOICE_RENDER writes outside the units (R251). -/
def Voice.setRendered (saw out : Word) (vo : Voice) : Voice := { vo with saw := saw, voiceOut := out }

/-- What VOICE_CTRL writes outside the units (R252). -/
def Voice.setControlled (period cutoff : Word) (vo : Voice) : Voice := { vo with period := period, cutoffMod := cutoff }

theorem frame_resetRecord (s : State) (v : Fin 8) :
    Frame [.voice v .note, .voice v .saw, .voice v .panLeft, .voice v .panRight] s
      (s.updVoice v Voice.resetRecord) := by
  refine frame_updVoice_record fun r hr => ?_
  cases r with
  | note | saw | panLeft | panRight => simp at hr
  | _ => rfl

theorem frame_setRendered (s : State) (v : Fin 8) (saw out : Word) :
    Frame [.voice v .saw, .voice v .voiceOut] s (s.updVoice v (·.setRendered saw out)) := by
  refine frame_updVoice_record fun r hr => ?_
  cases r with
  | saw | voiceOut => simp at hr
  | _ => rfl

theorem frame_setControlled (s : State) (v : Fin 8) (period cutoff : Word) :
    Frame [.voice v .period, .voice v .cutoffMod] s (s.updVoice v (·.setControlled period cutoff)) := by
  refine frame_updVoice_record fun r hr => ?_
  cases r with
  | period | cutoffMod => simp at hr
  | _ => rfl

theorem frame_voicePan (s : State) (v : Fin 8) (k : Nat) :
    Frame [.voice v .panLeft, .voice v .panRight] s (s.updVoice v (voicePan k)) := by
  refine frame_updVoice_record fun r hr => ?_
  cases r with
  | panLeft | panRight => simp at hr
  | _ => rfl

theorem frame_envNext (s : State) (v : Fin 8) (u : Fin 2) (k : Nat) :
    Frame (envDynamicRegs v u) s (s.updVoice v (·.updEnv u (envNext k))) :=
  frame_envDynamicRegs (by rw [envNext_eq]; exact ⟨rfl, rfl, rfl, rfl⟩)

/-! ### VOICE_RESET as resets of the units -/

/-- From `s` to `t` the registers in the list got the values that R250 gives them in voice `v`, and nothing else
changed. -/
def VoiceResets (v : Fin 8) (regs : List Reg) (s t : State) : Prop :=
  (∀ r ∈ regs, readReg t r =
    (if r = .voice v .panLeft ∨ r = .voice v .panRight then 0x3F34FDF4 else 0x00000000)) ∧ Frame regs s t

theorem voiceResets_resetRecord (s : State) (v : Fin 8) :
    VoiceResets v [.voice v .note, .voice v .saw, .voice v .panLeft, .voice v .panRight] s
      (s.updVoice v Voice.resetRecord) := by
  refine ⟨fun r hr => ?_, frame_resetRecord s v⟩
  simp only [List.mem_cons, List.not_mem_nil, or_false] at hr
  rcases hr with rfl | rfl | rfl | rfl <;> rw [readReg_updVoice_record]
  · rw [if_neg (by simp)]; rfl
  · rw [if_neg (by simp)]; rfl
  · rw [if_pos (by simp)]; rfl
  · rw [if_pos (by simp)]; rfl

/-- Clearing registers of a unit goes on with the reset. -/
theorem VoiceResets.clear {v : Fin 8} {l l' : List Reg} {s t u : State} (h : VoiceResets v l s t)
    (hunit : ∀ r, .voice v r ∉ l') (hzero : ∀ r ∈ l', readReg u r = 0x00000000) (hframe : Frame l' t u) :
    VoiceResets v (l ++ l') s u := by
  refine ⟨fun r hr => ?_, h.2.trans hframe⟩
  by_cases hr' : r ∈ l'
  · have hpan : ¬(r = .voice v .panLeft ∨ r = .voice v .panRight) := by
      rintro (rfl | rfl) <;> exact hunit _ hr'
    rw [if_neg hpan, hzero r hr']
  · rw [hframe.1 r hr', h.1 r ((List.mem_append.mp hr).resolve_right hr')]

theorem VoiceResets.oscReset {v : Fin 8} {l : List Reg} {s t : State} (h : VoiceResets v l s t) (u : Fin 2) :
    VoiceResets v (l ++ oscResetRegs v u) s (t.updVoice v (·.updOsc u oscReset)) := by
  obtain ⟨t', ht', hzero, hframe⟩ := oscResetClearsRunningState.2 t v u
  cases ht'
  exact h.clear (by simp [oscResetRegs]) hzero hframe

theorem VoiceResets.envReset {v : Fin 8} {l : List Reg} {s t : State} (h : VoiceResets v l s t) (u : Fin 2) :
    VoiceResets v (l ++ envDynamicRegs v u) s (t.updVoice v (·.updEnv u envReset)) := by
  obtain ⟨t', ht', hzero, hframe⟩ := envResetClearsDynamicState.2 t v u
  cases ht'
  exact h.clear (by simp [envDynamicRegs]) hzero hframe

theorem VoiceResets.filtReset {v : Fin 8} {l : List Reg} {s t : State} (h : VoiceResets v l s t) :
    VoiceResets v (l ++ filtResetRegs v) s (t.updVoice v (·.updFilt filtReset)) := by
  obtain ⟨t', ht', hzero, hframe⟩ := filtResetClearsCoefficientsAndIntegrators.2 t v
  cases ht'
  exact h.clear (by simp [filtResetRegs, filtCoefRegs]) hzero hframe

theorem voiceReset_eq (vo : Voice) : voiceReset vo =
    ((((vo.resetRecord.updOsc 0 oscReset).updOsc 1 oscReset).updEnv 0 envReset).updEnv 1 envReset).updFilt filtReset :=
  rfl

theorem voiceResets_voiceReset (s : State) (v : Fin 8) :
    VoiceResets v (voiceResetRegs v) s (s.updVoice v voiceReset) := by
  have h := (((((voiceResets_resetRecord s v).oscReset 0).oscReset 1).envReset 0).envReset 1).filtReset
  simp only [State.updVoice_updVoice, ← voiceReset_eq] at h
  exact h

/-! ### VOICE_RENDER, VOICE_CTRL and VOICE_PERIOD as the sequences of their rules -/

/-- VOICE_RENDER on one voice, unit by unit: each unit is advanced once, and the envelope before its level is read. -/
theorem voiceRender_eq {k : Nat} {x saw : Word} {vo : Voice}
    (hsaw : saw = sawStep k vo.saw (oscNext k (vo.osc 0)).out (oscNext k (vo.osc 1)).out) :
    voiceRender k x vo =
      ((((vo.updOsc 0 (oscNext k)).updOsc 1 (oscNext k)).updFilt (filtRender k (fadd k saw x))).updEnv 0
        (envNext k)).setRendered saw
          (fmul k (filtRender k (fadd k saw x) vo.filt).out (envNext k (vo.env 0)).level) := by
  subst hsaw
  rw [voiceRender]
  -- What the units compute does not matter here, and unfolding it is costly.
  generalize oscNext k = advance, filtRender k = filter, envNext k = step
  rfl

/-- The sequence of R251, and its two writes outside the units. -/
theorem exec_voiceRender_eq {s s1 s2 s3 s4 : State} {v : Fin 8} {x saw : Word}
    (hosc0 : exec (.oscNext v 0) s = .next s1) (hosc1 : exec (.oscNext v 1) s1 = .next s2)
    (hsaw : saw = sawStep s.freeDraws (readReg s (.voice v .saw)) (readReg s1 (.osc v 0 .out))
      (readReg s2 (.osc v 1 .out)))
    (hfilt : exec (.filtRender v (fadd s.freeDraws saw x)) s2 = .next s3)
    (henv : exec (.envNext v 0) s3 = .next s4) :
    exec (.voiceRender v x) s = .next (s4.updVoice v (·.setRendered saw
      (fmul s.freeDraws (readReg s3 (.filt v .out)) (readReg s4 (.env v 0 .level))))) := by
  cases hosc0
  cases hosc1
  cases hfilt
  cases henv
  have hne : (1 : Fin 2) ≠ 0 := by decide
  simp only [readReg, State.updVoice_voice_self, State.updVoice_updVoice, State.updVoice_freeDraws,
    Voice.updOsc_osc_self, Voice.updOsc_osc_ne _ _ hne, Voice.updOsc_filt, Voice.updFilt_filt, Voice.updOsc_env,
    Voice.updFilt_env, Voice.updEnv_env_self] at hsaw ⊢
  exact congrArg Host.Outcome.next (State.updVoice_congr (voiceRender_eq hsaw))

/-- The sequence of R252, and its two writes outside the units. -/
theorem exec_voiceCtrl_eq {s s1 s2 : State} {v : Fin 8} {mc : Word}
    (henv : exec (.envNext v 1) s = .next s1)
    (hmc : mc = cutoffOf s.freeDraws (readReg s (.voice v .cutoff))
      (fexp (fadd s.freeDraws (readReg s (.voice v .filterMod))
        (fmul s.freeDraws (readReg s (.voice v .filterEnvDepth)) (readReg s1 (.env v 1 .level)))))
      (readReg s (.voice v .pitchBend)))
    (hfilt : exec (.filtCoef v mc (readReg s (.voice v .filterQ))) s1 = .next s2) :
    exec (.voiceCtrl v) s =
      .next (s2.updVoice v (·.setControlled (glideStep s.freeDraws (s.voice v)) mc)) := by
  cases henv
  cases hfilt
  subst hmc
  simp only [State.updVoice_updVoice]
  refine congrArg Host.Outcome.next (State.updVoice_congr ?_)
  simp only [readReg, State.updVoice_voice_self]
  rfl

/-- VOICE_PERIOD writes two registers (R254). -/
theorem exec_voicePeriod_eq (s : State) (v : Fin 8) :
    let p0 := fmul s.freeDraws (readReg s (.voice v .period)) (readReg s (.glob .pitchBend))
    let p1 := fmul s.freeDraws p0 (readReg s (.glob .detune))
    exec (.voicePeriod v) s = .next (writeReg (writeReg s p0 (.osc v 0 .period)) p1 (.osc v 1 .period)) := by
  simp only [writeReg, State.updVoice_updVoice]
  exact congrArg Host.Outcome.next (State.updVoice_congr rfl)

theorem frame_writeReg_oscPeriod (s : State) (w : Word) (v : Fin 8) (u : Fin 2) :
    Frame [.osc v u .period] s (writeReg s w (.osc v u .period)) :=
  ⟨fun _ hq => readReg_writeReg_ne s w (List.ne_of_not_mem_cons hq) (by simp) (by simp), samePorts_writeReg ..⟩

/-! ### The statements -/

theorem commandWord_voiceReset : CommandWord 0x04 true false false 1 (fun w _ _ => .voiceReset (vField w)) :=
  commandWord_of_arm (fun w h => by simp only [dataWords, h]) (fun w d0 d1 h => by simp only [decodeCmd, h])

theorem commandWord_voiceRender : CommandWord 0x14 true false false 2 (fun w x _ => .voiceRender (vField w) x) :=
  commandWord_of_arm (fun w h => by simp only [dataWords, h]) (fun w d0 d1 h => by simp only [decodeCmd, h])

theorem commandWord_voiceCtrl : CommandWord 0x15 true false false 1 (fun w _ _ => .voiceCtrl (vField w)) :=
  commandWord_of_arm (fun w h => by simp only [dataWords, h]) (fun w d0 d1 h => by simp only [decodeCmd, h])

theorem commandWord_voicePan : CommandWord 0x16 true false false 1 (fun w _ _ => .voicePan (vField w)) :=
  commandWord_of_arm (fun w h => by simp only [dataWords, h]) (fun w d0 d1 h => by simp only [decodeCmd, h])

theorem commandWord_voicePeriod : CommandWord 0x17 true false false 1 (fun w _ _ => .voicePeriod (vField w)) :=
  commandWord_of_arm (fun w h => by simp only [dataWords, h]) (fun w d0 d1 h => by simp only [decodeCmd, h])

/-- Settles O35: the record and then each unit are reset, and no later reset undoes an earlier one. -/
theorem voiceResetClearsOneVoice : Obligations.VoiceResetClearsOneVoice := by
  unfold Obligations.VoiceResetClearsOneVoice
  exact ⟨commandWord_voiceReset, fun s v => ⟨_, rfl, voiceResets_voiceReset s v⟩⟩

/-- Settles O36: the sequence of R251, with the frames of its commands one after another. -/
theorem voiceRenderRunsTheVoicePath : Obligations.VoiceRenderRunsTheVoicePath := by
  unfold Obligations.VoiceRenderRunsTheVoicePath
  refine ⟨commandWord_voiceRender, fun s v x => ⟨_, _, _, _, _, rfl, rfl, rfl, rfl,
    exec_voiceRender_eq rfl rfl rfl rfl rfl, readReg_updVoice_record .., readReg_updVoice_record ..,
    (frame_setRendered ..).1, ?_⟩⟩
  exact Frame.mono (.trans (.trans (.trans (.trans (frame_oscNext ..) (frame_oscNext ..)) (frame_filtRender ..))
    (frame_envNext ..)) (frame_setRendered ..)) (by grind)

/-- Settles O37: the sequence of R252, with the frames of its commands one after another. -/
theorem voiceCtrlRunsTheControlTick : Obligations.VoiceCtrlRunsTheControlTick := by
  unfold Obligations.VoiceCtrlRunsTheControlTick
  refine ⟨commandWord_voiceCtrl, fun s v => ⟨_, _, _, rfl, rfl, exec_voiceCtrl_eq rfl rfl rfl,
    readReg_updVoice_record .., readReg_updVoice_record .., (frame_setControlled ..).1, ?_⟩⟩
  exact Frame.mono (.trans (.trans (frame_envNext ..) (frame_filtCoef ..)) (frame_setControlled ..))
    (by grind [voiceCtrlRegs])

/-- Settles O38: both gains come from the clamped position. -/
theorem voicePanSetsPanGains : Obligations.VoicePanSetsPanGains := by
  unfold Obligations.VoicePanSetsPanGains
  exact ⟨commandWord_voicePan, fun s v => ⟨_, rfl, readReg_updVoice_record .., readReg_updVoice_record ..,
    frame_voicePan s v _⟩⟩

/-- Settles O39: the two writes, of which the second leaves the first register alone. -/
theorem voicePeriodSetsOscillatorPeriods : Obligations.VoicePeriodSetsOscillatorPeriods := by
  unfold Obligations.VoicePeriodSetsOscillatorPeriods
  refine ⟨commandWord_voicePeriod, fun s v => ⟨_, exec_voicePeriod_eq s v, ?_⟩⟩
  rw [readReg_writeReg_ne _ _ (by simp) (by simp) (by simp), readReg_writeReg_self _ _ rfl (by simp) (by simp),
    readReg_writeReg_self _ _ rfl (by simp) (by simp)]
  exact ⟨rfl, rfl, (frame_writeReg_oscPeriod s _ v 0).trans (frame_writeReg_oscPeriod _ _ v 1)⟩

end Sys2Proof.Machine
end

section
/-! SUPPORT. The noise commands (R280, R281): what an update of the globals leaves unchanged, and why the division of
R281 is exact. -/

namespace Sys2Proof.Machine

/-! ### What a command on the globals leaves unchanged -/

/-- An update of the globals changes the global registers it changes, and nothing else. -/
theorem frame_updGlobals {regs : List Reg} {s : State} {f : Globals → Globals}
    (h : ∀ r, .glob r ∉ regs → readGlobal (f s.g) r = readGlobal s.g r) :
    Frame regs s (s.updGlobals f) :=
  ⟨sameRegsExcept_updGlobals h, samePorts_updGlobals s f⟩

theorem frame_noiseReset (s : State) : Frame [.glob .noiseSeed] s (s.updGlobals noiseReset) := by
  refine frame_updGlobals fun r hr => ?_
  cases r with
  | noiseSeed => simp at hr
  | _ => rfl

/-- What NOISE_NEXT writes (R281). -/
def Globals.setNoise (seed out : Word) (g : Globals) : Globals := { g with noiseSeed := seed, noiseOut := out }

theorem readReg_setNoise_seed (s : State) (seed out : Word) :
    readReg (s.updGlobals (·.setNoise seed out)) (.glob .noiseSeed) = seed := rfl

theorem readReg_setNoise_out (s : State) (seed out : Word) :
    readReg (s.updGlobals (·.setNoise seed out)) (.glob .noiseOut) = out := rfl

theorem frame_setNoise (s : State) (seed out : Word) :
    Frame [.glob .noiseSeed, .glob .noiseOut] s (s.updGlobals (·.setNoise seed out)) := by
  refine frame_updGlobals fun r hr => ?_
  cases r with
  | noiseSeed | noiseOut => simp at hr
  | _ => rfl

/-- NOISE_NEXT writes the next seed and the output of it. -/
theorem exec_noiseNext_eq (s : State) :
    exec .noiseNext s = .next (s.updGlobals (·.setNoise (noiseStep (readReg s (.glob .noiseSeed)))
      (noiseValue s.freeDraws s.noiseMap (noiseStep (readReg s (.glob .noiseSeed)))))) := by
  change execNoiseNext s = _
  rw [execNoiseNext, State.updGlobals, noiseNext]
  rfl

/-! ### The recurrence and the numerators -/

theorem toNat_noiseStep (seed : Word) :
    (noiseStep seed).toNat = (196314165 * seed.toNat + 907633515) % 2 ^ 32 := by
  have ha : Config.noiseA.toNat = 196314165 := rfl
  have hc : Config.noiseC.toNat = 907633515 := rfl
  rw [noiseStep, BitVec.toNat_add, BitVec.toNat_mul, ha, hc, Nat.mod_add_mod]

theorem toInt_noiseNumerator_openInterval (seed : Word) :
    (noiseNumerator .openInterval seed).toInt = (2 * (seed.toNat / 2 ^ 8) + 1 : ℕ) - 2 ^ 24 := by
  have hnum : noiseNumerator .openInterval seed = 2#32 * (seed >>> 8) + 1#32 - 16777216#32 := rfl
  have hu : (seed >>> 8).toNat = seed.toNat / 2 ^ 8 := by rw [BitVec.toNat_ushiftRight, Nat.shiftRight_eq_div_pow]
  rw [hnum, BitVec.toInt_eq_toNat_cond]
  bv_omega

theorem toInt_noiseNumerator_upstream (seed : Word) :
    (noiseNumerator .upstream seed).toInt = (seed.toNat / 2 ^ 7 : ℕ) - 2 ^ 24 := by
  have hnum : noiseNumerator .upstream seed = (seed >>> 7) - 16777216#32 := rfl
  have ht : (seed >>> 7).toNat = seed.toNat / 2 ^ 7 := by rw [BitVec.toNat_ushiftRight, Nat.shiftRight_eq_div_pow]
  rw [hnum, BitVec.toInt_eq_toNat_cond]
  bv_omega

/-- Both integers of R281 have magnitude at most 2^24. -/
theorem natAbs_noiseNumerator_le (m : NoiseMap) (seed : Word) : (noiseNumerator m seed).toInt.natAbs ≤ 2 ^ 24 := by
  have h := seed.isLt
  cases m with
  | openInterval =>
    rw [toInt_noiseNumerator_openInterval]
    omega
  | upstream =>
    rw [toInt_noiseNumerator_upstream]
    omega

/-! ### The exact quotient -/

/-- A quotient that is a magnitude's needs no rounding. -/
theorem roundRat_units_mul (neg : Bool) {c q : Nat} (hc : c ≤ 0x7F800000) (hq : 0 < q) :
    roundRat neg (units c * q) q = signed neg c := by
  have h := nearestEven_roundMagnitude (units c * q) hq
  rw [Nat.cast_mul, mul_div_cancel_right₀ _ (by positivity)] at h
  rw [roundRat_eq_signed, h.eq_of_units, min_eq_left hc]

/-- A whole number of at most 24 significant bits is read as itself. -/
theorem operand_i2f {n : Word} (h : n.toInt.natAbs ≤ 2 ^ 24) :
    operand (i2f n) = .fin (decide (n.toInt < 0)) (n.toInt.natAbs * 2 ^ 149) := by
  have hlt : n.toInt.natAbs * 2 ^ 149 < 2 ^ 24 * 2 ^ 253 := by omega
  obtain ⟨c, hc, hr, hu⟩ := roundRat_exact (decide (n.toInt < 0)) h hlt
  have hfin : isFinite (i2f n) = true := (valueOf_roundRat_exact _ h hlt).1
  rw [operand_of_isFinite hfin, i2f, flushSubnormal_of_not (isSubnormal_roundRat_whole ..), signBit_roundRat, hr,
    magnitude_signed _ (by omega), hu]

theorem operand_twoPow24F : operand Config.twoPow24F = .fin false (2 ^ 24 * 2 ^ 149) := by
  rw [operand, flushSubnormal_of_not (by decide)]
  rfl

/-- A whole number of at most 24 significant bits over 2^24 is a number again, and it is no subnormal. -/
theorem exists_fdiv_twoPow24F (k : Nat) {n : Word} (h : n.toInt.natAbs ≤ 2 ^ 24) :
    ∃ c < 0x7F800000, fdiv k (i2f n) Config.twoPow24F = signed (decide (n.toInt < 0)) c ∧
      units c = n.toInt.natAbs * 2 ^ 125 := by
  obtain ⟨c, hc, -, hu⟩ := roundRat_exact (decide (n.toInt < 0)) (j := 125) h (by omega)
  have hnormal : c = 0 ∨ 2 ^ 23 ≤ c := by
    rcases Nat.eq_zero_or_pos n.toInt.natAbs with hz | hpos
    · exact .inl (by rwa [hz, Nat.zero_mul, units_eq_zero_iff] at hu)
    · refine .inr (units_strictMono.le_iff_le.mp ?_)
      rw [hu, show units (2 ^ 23) = 2 ^ 23 from rfl]
      omega
  have hp : n.toInt.natAbs * 2 ^ 149 * 2 ^ 149 = units c * (2 ^ 24 * 2 ^ 149) := by
    rw [hu]
    ring
  refine ⟨c, hc, ?_, hu⟩
  rw [fdiv_fin (operand_i2f h) operand_twoPow24F (by decide), Bool.xor_false, roundFlush, hp,
    roundRat_units_mul _ hc.le (by positivity), flushSubnormal_of_not]
  rwa [isSubnormal_eq_false_iff, magnitude_signed _ (by omega)]

/-- The conversion and the division of R281 are exact. -/
theorem isFinite_noiseValue_and_value (k : Nat) (m : NoiseMap) (seed : Word) :
    isFinite (noiseValue k m seed) = true ∧
      valueOf (noiseValue k m seed) = ((noiseNumerator m seed).toInt : ℚ) / 2 ^ 24 := by
  obtain ⟨c, hc, hdiv, hu⟩ := exists_fdiv_twoPow24F k (natAbs_noiseNumerator_le m seed)
  rw [noiseValue, hdiv, isFinite_iff, magnitude_signed _ (by omega), valueOf_signed _ (by omega), hu]
  refine ⟨hc, ?_⟩
  rw [Nat.cast_mul, ← signFactor_mul_natAbs (z := (noiseNumerator m seed).toInt) fun _ => rfl]
  push_cast
  ring

/-! ### The statements -/

theorem commandWord_noiseReset : CommandWord 0x18 false false false 1 (fun _ _ _ => .noiseReset) :=
  commandWord_of_arm (fun w h => by simp only [dataWords, h]) (fun w d0 d1 h => by simp only [decodeCmd, h])

theorem commandWord_noiseNext : CommandWord 0x19 false false false 1 (fun _ _ _ => .noiseNext) :=
  commandWord_of_arm (fun w h => by simp only [dataWords, h]) (fun w d0 d1 h => by simp only [decodeCmd, h])

/-- Settles O42: NOISE_RESET writes one register of the globals, and NOISE_OUT is not it. -/
theorem noiseResetReloadsSeed : Obligations.NoiseResetReloadsSeed := by
  unfold Obligations.NoiseResetReloadsSeed
  exact ⟨commandWord_noiseReset, fun s => ⟨s.updGlobals noiseReset, rfl, rfl, frame_noiseReset s⟩⟩

/-- Settles O43: the recurrence is u32 arithmetic, and either numerator over 2^24 needs no rounding. -/
theorem noiseNextAdvancesTheSeed : Obligations.NoiseNextAdvancesTheSeed := by
  unfold Obligations.NoiseNextAdvancesTheSeed
  refine ⟨commandWord_noiseNext, fun s => ⟨_, exec_noiseNext_eq s, ?_⟩, fun k seed => ?_⟩
  · have hseed := toNat_noiseStep (readReg s (.glob .noiseSeed))
    -- What the recurrence computes no longer matters, and unfolding it is costly.
    generalize noiseStep _ = seed at hseed ⊢
    exact ⟨hseed, readReg_setNoise_out .., frame_setNoise ..⟩
  · obtain ⟨hfinOpen, hvalOpen⟩ := isFinite_noiseValue_and_value k .openInterval seed
    obtain ⟨hfinUp, hvalUp⟩ := isFinite_noiseValue_and_value k .upstream seed
    rw [toInt_noiseNumerator_openInterval] at hvalOpen
    rw [toInt_noiseNumerator_upstream] at hvalUp
    exact ⟨hfinOpen, hfinUp, by exact_mod_cast hvalOpen, by exact_mod_cast hvalUp⟩

end Sys2Proof.Machine
end

section
/-! SUPPORT. Voices are independent (R132, R300): a command with a voice field makes of that voice what the voice itself
and three globals say, and a voice is no more than its registers. -/

namespace Sys2Proof.Machine

/-! ### A voice is its registers -/

theorem eq_of_readOsc_eq {o o' : Oscillator} (h : ∀ r, readOsc o' r = readOsc o r) : o' = o := by
  rw [eq_of_readOsc_eq_except_phaseMax fun r _ => h r, show o'.phaseMax = o.phaseMax from h .phaseMax]

theorem eq_of_readEnv_eq {e e' : Envelope} (h : ∀ r, readEnv e' r = readEnv e r) : e' = e := by
  cases e'
  rw [Envelope.mk.injEq]
  exact ⟨h .level, h .target, h .multiplier, h .attackMul, h .decayMul, h .sustainLevel, h .releaseMul⟩

theorem eq_of_readFilt_eq {f f' : Filter} (h : ∀ r, readFilt f' r = readFilt f r) : f' = f := by
  cases f'
  rw [Filter.mk.injEq]
  exact ⟨h .g, h .k, h .a1, h .a2, h .a3, h .ic1eq, h .ic2eq, h .out⟩

/-- A register of a voice reads the same if the voice is the same. -/
theorem readReg_eq_of_voice_eq {s s' : State} {v : Fin 8} (h : s'.voice v = s.voice v) {r : Reg}
    (hr : r.voice? = some v) : readReg s' r = readReg s r := by
  refine readReg_congr r (fun hnone => by simp [hnone] at hr) fun w hw => ?_
  obtain rfl : w = v := by simpa [hw] using hr
  exact h

theorem voice_eq_of_readReg_eq {s s' : State} {v : Fin 8}
    (h : ∀ r : Reg, r.voice? = some v → readReg s' r = readReg s r) : s'.voice v = s.voice v := by
  have hrec : ∀ r, readVoice (s'.voice v) r = readVoice (s.voice v) r := fun r => h (.voice v r) rfl
  have hosc : ∀ u, (s'.voice v).osc u = (s.voice v).osc u := fun u => eq_of_readOsc_eq fun r => h (.osc v u r) rfl
  have henv : ∀ u, (s'.voice v).env u = (s.voice v).env u := fun u => eq_of_readEnv_eq fun r => h (.env v u r) rfl
  have hfilt : (s'.voice v).filt = (s.voice v).filt := eq_of_readFilt_eq fun r => h (.filt v r) rfl
  generalize s'.voice v = vo' at *
  cases vo'
  rw [Voice.mk.injEq]
  exact ⟨hrec .note, hrec .saw, hrec .period, hrec .target, hrec .glideRate, hrec .panLeft, hrec .panRight,
    hrec .cutoff, hrec .filterMod, hrec .filterQ, hrec .pitchBend, hrec .filterEnvDepth, hrec .voiceOut,
    hrec .cutoffMod, hosc 0, hosc 1, henv 0, henv 1, hfilt⟩

/-! ### What a command makes of the voice it names -/

/-- What a command with a voice field makes of that voice. Beside the voice it gets the key of the free NaN patterns and
the three globals that such a command reads: SAMPLE_RATE (R232, R252), PITCH_BEND and DETUNE (R254). -/
def voiceEffect (k : Nat) (sampleRate pitchBend detune : Word) : Instr → Voice → Voice
  | .voiceReset _ => voiceReset
  | .envReset _ u => (·.updEnv u envReset)
  | .envAttack _ u => (·.updEnv u (envAttack k))
  | .envRelease _ u => (·.updEnv u envRelease)
  | .envNext _ u => (·.updEnv u (envNext k))
  | .oscReset _ u => (·.updOsc u oscReset)
  | .oscNext _ u => (·.updOsc u (oscNext k))
  | .filtReset _ => (·.updFilt filtReset)
  | .filtCoef _ cutoff q => (·.updFilt (filtCoef k sampleRate cutoff q))
  | .filtRender _ x => (·.updFilt (filtRender k x))
  | .voiceRender _ noise => voiceRender k noise
  | .voiceCtrl _ => voiceCtrl k sampleRate
  | .voicePan _ => voicePan k
  | .voicePeriod _ => voicePeriod k pitchBend detune
  | _ => id

theorem exec_eq_voiceEffect {i : Instr} {v : Fin 8} (h : i.voice? = some v) (s : State) :
    exec i s = .next (s.updVoice v (voiceEffect s.freeDraws s.g.sampleRate s.g.pitchBend s.g.detune i)) := by
  cases i <;> simp only [Instr.voice?, reduceCtorEq, Option.some.injEq] at h
  all_goals
    subst h
    rfl

/-- Settles O41: the voice and the globals that make up the command's effect are the same in both states. -/
theorem voicesDoNotReadEachOther : Obligations.VoicesDoNotReadEachOther := by
  unfold Obligations.VoicesDoNotReadEachOther
  intro i s s' t t' v hv hsame hk ht ht' r hr
  have hvoice : s'.voice v = s.voice v := voice_eq_of_readReg_eq fun r hr => hsame r (.inl hr)
  have hrate : s'.g.sampleRate = s.g.sampleRate := hsame (.glob .sampleRate) (.inr rfl)
  have hbend : s'.g.pitchBend = s.g.pitchBend := hsame (.glob .pitchBend) (.inr rfl)
  have hdetune : s'.g.detune = s.g.detune := hsame (.glob .detune) (.inr rfl)
  rw [exec_eq_voiceEffect hv, Host.Outcome.next.injEq] at ht ht'
  subst ht ht'
  refine readReg_eq_of_voice_eq ?_ hr
  rw [State.updVoice_voice_self, State.updVoice_voice_self, hvoice, hk, hrate, hbend, hdetune]

end Sys2Proof.Machine
end

section
/-! SUPPORT. The LFO commands (R290, R291) and the loop of `lfo_push()` (R300): one round of the loop is one update of
its voice, and one round for each voice is an update of them all. -/

namespace Sys2Proof.Machine

/-! ### An update of every voice, voice by voice -/

theorem Voices.set_get_self (vs : Voices) (v : Fin 8) : vs.set v (vs.get v) = vs := by
  fin_cases v <;> rfl

theorem State.updVoice_of_fixed {s : State} {v : Fin 8} {f : Voice → Voice} (h : f (s.voice v) = s.voice v) :
    s.updVoice v f = s := by
  rw [State.updVoice_congr (g := id) h, State.updVoice, id, Voices.set_get_self]

theorem foldl_updVoice_voiceOrder (s : State) (f : Voice → Voice) :
    voiceOrder.foldl (fun t v => t.updVoice v f) s = s.mapVoices f := rfl

/-! ### The loop of `lfo_push()` (R300) -/

theorem activeBit_eq (s : State) (v : Fin 8) : activeBit s v = voiceActive (s.voice v) :=
  getLsbD_zero_envStatusWord _

theorem lfoPushVoice_of_inactive {vo : Voice} (h : voiceActive vo = false) (k : Nat) (g : Globals) :
    lfoPushVoice k g vo = vo := by
  simp [lfoPushVoice, h]

theorem readReg_writeReg_osc_glob (s : State) (w : Word) (v : Fin 8) (u : Fin 2) (r : OReg) (q : GReg) :
    readReg (writeReg s w (.osc v u r)) (.glob q) = readReg s (.glob q) := rfl

/-- The body of the loop for an active voice is `lfo_push()` on that voice. -/
theorem runAll_push_of_active {s : State} {v : Fin 8} (h : voiceActive (s.voice v) = true) :
    runAll [.voiceCtrl v, .voicePeriod v]
      (writeReg (writeReg (writeReg s (readReg s (.glob .vibratoMod)) (.osc v 0 .modulation))
        (readReg s (.glob .pwmMod)) (.osc v 1 .modulation)) (readReg s (.glob .filterZip)) (.voice v .filterMod)) =
      .next (s.updVoice v (lfoPushVoice s.freeDraws s.g)) := by
  simp only [runAll, exec_eq_voiceEffect (i := .voiceCtrl v) rfl, exec_eq_voiceEffect (i := .voicePeriod v) rfl,
    voiceEffect, writeReg, State.updVoice_updVoice, State.updVoice_freeDraws, State.updVoice_g]
  refine congrArg Host.Outcome.next (State.updVoice_congr ?_)
  rw [lfoPushVoice, if_pos h]
  rfl

theorem pushLoop_cons (v : Fin 8) (vs : List (Fin 8)) (s : State) :
    pushLoop (v :: vs) s = pushLoop vs (s.updVoice v (lfoPushVoice s.freeDraws s.g)) := by
  rw [pushLoop, activeBit_eq]
  cases h : voiceActive (s.voice v) with
  | true => simp only [if_true, readReg_writeReg_osc_glob, runAll_push_of_active h]
  | false =>
    rw [State.updVoice_of_fixed (lfoPushVoice_of_inactive h _ _)]
    rfl

theorem pushLoop_eq_foldl (vs : List (Fin 8)) (s : State) :
    pushLoop vs s = .next (vs.foldl (fun t v => t.updVoice v (lfoPushVoice s.freeDraws s.g)) s) := by
  induction vs generalizing s with
  | nil => rfl
  | cons v vs ih =>
    rw [pushLoop_cons, ih]
    rfl

theorem pushLoop_voiceOrder (s : State) : pushLoop voiceOrder s = .next (lfoPush s.freeDraws s) := by
  rw [pushLoop_eq_foldl, foldl_updVoice_voiceOrder, lfoPush]

theorem readReg_lfoPush_of_inactive {s : State} {v : Fin 8} (h : activeBit s v = false) (k : Nat) {r : Reg}
    (hr : r.voice? = some v) : readReg (lfoPush k s) r = readReg s r := by
  refine readReg_eq_of_voice_eq ?_ hr
  rw [lfoPush, State.mapVoices_voice, lfoPushVoice_of_inactive (by rwa [activeBit_eq] at h)]

/-! ### The tick (R291) -/

theorem lfoTick_of_counts {s : State} (h : 0 < (s.g.lfoStep - 1).toInt) (k : Nat) :
    lfoTick k s = s.updGlobals ({ · with lfoStep := s.g.lfoStep - 1 }) :=
  if_neg (by rw [(nonPositive_eq_false_iff _).mpr h]; decide)

theorem lfoTick_of_fires {s : State} (h : (s.g.lfoStep - 1).toInt ≤ 0) (k : Nat) :
    lfoTick k s = lfoPush k (s.updGlobals (lfoFire k)) :=
  if_pos (decide_eq_true h)

theorem sameRegsExcept_lfoStep (s : State) (step : Word) :
    SameRegsExcept [.glob .lfoStep] s (s.updGlobals ({ · with lfoStep := step })) := by
  refine sameRegsExcept_updGlobals fun r hr => ?_
  cases r with
  | lfoStep => simp at hr
  | _ => rfl

theorem sameRegsExcept_lfoFire (s : State) (k : Nat) :
    SameRegsExcept [.glob .lfoStep, .glob .lfoPhase, .glob .lfoSine, .glob .vibratoMod, .glob .pwmMod,
      .glob .lfoFmod, .glob .filterZip] s (s.updGlobals (lfoFire k)) := by
  refine sameRegsExcept_updGlobals fun r hr => ?_
  cases r with
  | lfoStep | lfoPhase | lfoSine | vibratoMod | pwmMod | lfoFmod | filterZip => simp at hr
  | _ => rfl

theorem frame_lfoReset (s : State) :
    Frame [.glob .lfoPhase, .glob .lfoStep, .glob .filterZip] s (s.updGlobals lfoReset) := by
  refine frame_updGlobals fun r hr => ?_
  cases r with
  | lfoPhase | lfoStep | filterZip => simp at hr
  | _ => rfl

/-! ### The statements -/

theorem commandWord_lfoReset : CommandWord 0x1C false false false 1 (fun _ _ _ => .lfoReset) :=
  commandWord_of_arm (fun w h => by simp only [dataWords, h]) (fun w d0 d1 h => by simp only [decodeCmd, h])

theorem commandWord_lfoTick : CommandWord 0x1D false false false 1 (fun _ _ _ => .lfoTick) :=
  commandWord_of_arm (fun w h => by simp only [dataWords, h]) (fun w d0 d1 h => by simp only [decodeCmd, h])

/-- Settles O44: LFO_RESET writes three registers of the globals. -/
theorem lfoResetClearsRunningState : Obligations.LfoResetClearsRunningState := by
  unfold Obligations.LfoResetClearsRunningState
  refine ⟨commandWord_lfoReset, fun s => ⟨s.updGlobals lfoReset, rfl, fun r hr => ?_, frame_lfoReset s⟩⟩
  simp only [List.mem_cons, List.not_mem_nil, or_false] at hr
  rcases hr with rfl | rfl | rfl <;> rfl

/-- Settles O45: the tick counts, or it updates the globals and then runs the loop, which leaves the globals and the
inactive voices alone. -/
theorem lfoTickCountsAndFires : Obligations.LfoTickCountsAndFires := by
  unfold Obligations.LfoTickCountsAndFires
  refine ⟨commandWord_lfoTick, fun s => ⟨_, rfl, samePorts_lfoTick _ s, fun h => ?_, fun h => ?_⟩⟩
  · rw [lfoTick_of_counts h]
    exact ⟨rfl, sameRegsExcept_lfoStep s _⟩
  · rw [lfoTick_of_fires h]
    refine ⟨s.updGlobals (lfoFire s.freeDraws), samePorts_updGlobals s _, sameRegsExcept_lfoFire s _,
      pushLoop_voiceOrder _, rfl, rfl, rfl, rfl, rfl, rfl, rfl, fun _ => rfl, fun v r hinactive hr => ?_⟩
    have hactive : activeBit (s.updGlobals (lfoFire s.freeDraws)) v = false := hinactive
    rw [readReg_lfoPush_of_inactive hactive _ hr, readReg_updGlobals s _ hr]

end Sys2Proof.Machine
end

section
/-! SUPPORT. A step with nothing on the port (R356), with an illegal word on it (R342), and with the words of one host
on it, which never stop the core (R109, R340). -/

namespace Sys2Proof.Machine

/-- Settles O8: the fetch takes nothing, so the decoder waits as it is. -/
theorem coreWithoutInputKeepsItsState : Obligations.CoreWithoutInputKeepsItsState := by
  unfold Obligations.CoreWithoutInputKeepsItsState
  intro s hin
  calc step s
      _ = .next (s.wait s.dec) := by rw [step, hin, fetch]
      _ = .next s := by rw [State.wait, ← hin]

/-! ### An illegal word (R342) -/

/-- The word of a first report, as a number: the cause in bits 7:4, and `ILL` (R52). -/
theorem toNat_reportWord (cause : BitVec 4) : (0#24 ++ cause ++ 0#3 ++ 1#1).toNat = cause.toNat * 2 ^ 4 + 1 := by
  revert cause
  decide

/-- A command word that the decoder rejects has cause 1 or 2 (R341). -/
theorem reject_of_decodeCmd {w d0 d1 : Word} {r : Reject} (h : decodeCmd w d0 d1 = .error r) :
    (r = .undefinedOp ∨ r = .badField) ∧ r.cause = if r = .undefinedOp then 1 else 2 := by
  cases r with
  | undefinedOp | badField => exact ⟨by simp, rfl⟩
  | truncated => exact absurd h (decodeCmd_ne_truncated w d0 d1)

/-- Settles O9: the report shows in two registers and in the response to a `REG_RD`, and an illegal word is reported
alone. -/
theorem illegalCommandOnlyReports : Obligations.IllegalCommandOnlyReports := by
  unfold Obligations.IllegalCommandOnlyReports
  refine ⟨fun cause w s => ⟨?_, readReg_raiseIllegal_illWord .., raiseIllegal_response ..,
    sameRegsExcept_raiseIllegal cause w s, raiseIllegal_dec .., raiseIllegal_inputs .., raiseIllegal_freeDraws ..,
    raiseIllegal_noiseMap ..⟩, fun s h w rest r hd hin hw => ?_⟩
  · rw [readReg_raiseIllegal_status, apply_ite BitVec.toNat, toNat_reportWord]
  · obtain ⟨hr, hcause⟩ := reject_of_decodeCmd hw
    exact ⟨hr, by rw [step_of_illegalWord hd hin hw, hcause]⟩

/-! ### One host (R109) -/

/-- A packet begun is one of the host `h`. -/
def DecFrom (h : Nat) (d : Dec) : Prop := d.need ≠ 0 → d.src = h

/-- The waiting words are words of the host `h`. -/
def InputsFrom (h : Nat) (l : List Input) : Prop := ∀ src w, Input.word src w ∈ l → src = h

/-- One word leaves a packet of the host `h`, and does not interleave. -/
def TakenFrom (h : Nat) : Taken → Prop
  | .collecting d | .run _ d | .illegal _ _ d => DecFrom h d
  | .interleaved => False

/-- The fetch leaves a packet and words of the host `h`, and finds no words that interleave. -/
def FetchedFrom (h : Nat) : Fetched → Prop
  | .idle d => DecFrom h d
  | .reset rest => InputsFrom h rest
  | .command _ d rest | .illegal _ _ d rest => DecFrom h d ∧ InputsFrom h rest
  | .interleaved => False

theorem oneHost_iff (h : Nat) (s : State) : OneHost h s ↔ InputsFrom h s.inputs ∧ DecFrom h s.dec := Iff.rfl

theorem decFrom_store {h : Nat} {d : Dec} (hd : DecFrom h d) (w : Word) : DecFrom h (d.store w) := by
  intro hne
  rw [Dec.store_need] at hne
  rw [Dec.store_src]
  exact hd (by omega)

theorem takenFrom_finish {h : Nat} {d : Dec} (hd : DecFrom h d) (w d0 d1 : Word) : TakenFrom h (d.finish w d0 d1) := by
  unfold Dec.finish
  split <;> exact hd

theorem takenFrom_takeWord {h : Nat} {d : Dec} (hd : DecFrom h d) (w : Word) : TakenFrom h (takeWord d h w) := by
  unfold takeWord
  split
  · cases decodeCmd w 0 0 with
    | error r => exact hd
    | ok i =>
      dsimp only
      split
      · exact hd
      · exact fun _ => rfl
  · next hneed =>
    rw [if_neg (by simp [hd hneed])]
    dsimp only
    split
    · exact takenFrom_finish (decFrom_store hd w) ..
    · exact decFrom_store hd w

theorem fetchedFrom_fetch {h : Nat} {d : Dec} {l : List Input} (hd : DecFrom h d) (hl : InputsFrom h l) :
    FetchedFrom h (fetch d l) := by
  induction l generalizing d with
  | nil => exact hd
  | cons e l ih =>
    have hrest : InputsFrom h l := fun src w hmem => hl src w (List.mem_cons_of_mem e hmem)
    cases e with
    | rst => exact hrest
    | word src w =>
      obtain rfl : src = h := hl src w List.mem_cons_self
      have ht := takenFrom_takeWord hd w
      rw [fetch]
      cases he : takeWord d src w <;> rw [he] at ht
      case collecting d' => exact ih ht hrest
      case run | illegal => exact ⟨ht, hrest⟩
      case interleaved => exact ht

theorem regRead_inputs (a : Addr) (s : State) : (regRead a s).inputs = s.inputs := by
  rcases regRead_cases a s with ⟨-, e⟩ | ⟨r, -, e⟩ <;> simp [e]

/-- Every command answers a next state, and takes no events. -/
theorem exec_keeps_inputs (i : Instr) (s : State) : ∃ t, exec i s = .next t ∧ t.dec = s.dec ∧ t.inputs = s.inputs := by
  by_cases hi : ∃ a, i = .regRd a
  · obtain ⟨a, rfl⟩ := hi
    exact ⟨regRead a s, rfl, regRead_dec a s, regRead_inputs a s⟩
  · obtain ⟨t, ht, hdec, hinputs, -⟩ := exec_samePorts (not_exists.mp hi) s
    exact ⟨t, ht, hdec, hinputs⟩

/-- A step on one host's words answers a next state, and only words of that host still wait in it. -/
theorem step_of_oneHost {h : Nat} {s : State} (hs : OneHost h s) : ∃ t, step s = .next t ∧ OneHost h t := by
  have hf := fetchedFrom_fetch hs.2 hs.1
  rcases step_cases s with ⟨d, e, hst⟩ | ⟨rest, e, hst⟩ | ⟨i, d, rest, e, hst⟩ | ⟨r, w, d, rest, e, hst⟩ | ⟨e, -⟩ <;>
    rw [e] at hf
  · exact ⟨_, hst, nofun, hf⟩
  · exact ⟨_, hst, hf, fun hne => absurd rfl hne⟩
  · obtain ⟨hd, hrest⟩ := hf
    obtain ⟨t, ht, hdec, hinputs⟩ := exec_keeps_inputs i (s.accept d rest)
    refine ⟨t, hst.trans ht, ?_⟩
    rw [oneHost_iff, hdec, hinputs]
    exact ⟨hrest, hd⟩
  · obtain ⟨hd, hrest⟩ := hf
    refine ⟨_, hst, ?_⟩
    rw [oneHost_iff, raiseIllegal_dec, raiseIllegal_inputs]
    exact ⟨hrest, hd⟩
  · exact hf.elim

theorem run_succ_of_step {M : Host.Core} {s t : M.State} (h : M.step s = .next t) (n : Nat) :
    M.run (n + 1) s = M.run n t := by
  rw [Host.Core.run, h]

theorem safeRun_succ {n : Nat} {s t : State} (h : step s = .next t) (ht : SafeRun n t) : SafeRun (n + 1) s := by
  obtain ⟨u, hu⟩ := ht
  exact ⟨u, (run_succ_of_step (M := Sys2Proof.core) h n).trans hu⟩

/-- Settles O11: one host's words are what every step keeps, and from them it answers a next state. -/
theorem oneHostRunsForever : Obligations.OneHostRunsForever := by
  unfold Obligations.OneHostRunsForever
  intro n h s hs
  induction n generalizing s with
  | zero => exact ⟨s, rfl⟩
  | succ n ih =>
    obtain ⟨t, ht, hkept⟩ := step_of_oneHost hs
    exact safeRun_succ ht (ih t hkept)

end Sys2Proof.Machine
end

section
/-! SUPPORT. The power-on values (R360), which every register reads where the globals and the voices are those of the
reset. -/

namespace Sys2Proof.Machine

theorem readGlobal_reset (r : GReg) : readGlobal Globals.reset r = powerOnValue (.glob r) := by
  cases r <;> rfl

theorem readVoice_reset (v : Fin 8) (r : VReg) : readVoice Voice.reset r = powerOnValue (.voice v r) := by
  cases r <;> rfl

theorem Voice.reset_osc (u : Fin 2) : Voice.reset.osc u = Oscillator.reset := by
  fin_cases u <;> rfl

theorem Voice.reset_env (u : Fin 2) : Voice.reset.env u = Envelope.reset := by
  fin_cases u <;> rfl

theorem readOsc_reset (v : Fin 8) (u : Fin 2) (r : OReg) : readOsc Oscillator.reset r = powerOnValue (.osc v u r) := by
  cases r <;> rfl

theorem readEnv_reset (v : Fin 8) (u : Fin 2) (r : EReg) : readEnv Envelope.reset r = powerOnValue (.env v u r) := by
  cases r with
  | status => exact envStatusWord_of_zeroF rfl rfl
  | _ => rfl

theorem readFilt_reset (v : Fin 8) (r : FReg) : readFilt Filter.reset r = powerOnValue (.filt v r) := by
  cases r <;> rfl

theorem readReg_of_reset {s : State} (hg : s.g = Globals.reset) (hv : ∀ v, s.voice v = Voice.reset) (r : Reg) :
    readReg s r = powerOnValue r := by
  cases r with
  | glob r => rw [readReg, hg, readGlobal_reset]
  | voice v r => rw [readReg, hv, readVoice_reset]
  | osc v u r => rw [readReg, hv, Voice.reset_osc, readOsc_reset]
  | env v u r => rw [readReg, hv, Voice.reset_env, readEnv_reset]
  | filt v r => rw [readReg, hv]; exact readFilt_reset v r

/-- Settles O14: every unit is the reset one. -/
theorem resetStateReadsPowerOnValues : Obligations.ResetStateReadsPowerOnValues := by
  unfold Obligations.ResetStateReadsPowerOnValues
  have hread : ∀ r, readReg State.reset r = powerOnValue r := readReg_of_reset rfl Voices.get_reset
  exact ⟨hread, rfl, rfl, rfl, rfl, fun v u => hread (.env v u .status)⟩

theorem step_of_reset {s : State} {rest : List Input} (h : fetch s.dec s.inputs = .reset rest) :
    step s = .next (s.powerOn rest) := by
  rw [step, h]

/-- Settles O13: the fetch comes to `RST`, and the state after it is the power-on state with the rest of the inputs. -/
theorem rstRestoresPowerOnState : Obligations.RstRestoresPowerOnState := by
  unfold Obligations.RstRestoresPowerOnState
  intro s before rest d hbefore hin
  have hfetch : fetch s.dec s.inputs = .reset rest := by rw [hin, fetch_append hbefore, fetch]
  exact ⟨s.powerOn rest, step_of_reset hfetch, readReg_of_reset rfl (State.powerOn_voice s rest), rfl, rfl, rfl, rfl,
    rfl, rfl, coreWithoutInputKeepsItsState (s.powerOn rest)⟩

end Sys2Proof.Machine
end

section
/-! SUPPORT. The gain smoother (R311 to R314): what each command writes by the ramp's count, and a ramp call by call. -/

namespace Sys2Proof.Machine

/-! ### GAIN_RESET and GAIN_SET -/

theorem nonPositive_eq_true_iff (n : Word) : nonPositive n = true ↔ n.toInt ≤ 0 := by
  simp [nonPositive]

theorem frame_gainReset (s : State) : Frame [.glob .gainCur, .glob .gainCount] s (s.updGlobals gainReset) := by
  refine frame_updGlobals fun r hr => ?_
  cases r with
  | gainCur | gainCount => simp at hr
  | _ => rfl

/-- What a GAIN_SET without a ramp length writes (R311). -/
def Globals.snapGain (x : Word) (g : Globals) : Globals := { g with gainCur := x, gainTarget := x, gainCount := 0 }

/-- What a GAIN_SET that starts a ramp writes (R311). -/
def Globals.startRamp (x count step : Word) (g : Globals) : Globals :=
  { g with gainTarget := x, gainCount := count, gainStep := step }

theorem gainSet_of_sameTarget {x : Word} {g : Globals} (h : feq x g.gainTarget = true) (k : Nat) :
    gainSet k x g = g := by
  rw [gainSet, if_pos h]

theorem gainSet_of_snap {x : Word} {g : Globals} (h : feq x g.gainTarget = false) (hn : g.gainSteps.toInt ≤ 0)
    (k : Nat) : gainSet k x g = g.snapGain x := by
  rw [gainSet, if_neg (by simp [h]), if_pos ((nonPositive_eq_true_iff _).mpr hn), Globals.snapGain]

theorem gainSet_of_ramp {x : Word} {g : Globals} (h : feq x g.gainTarget = false) (hn : 0 < g.gainSteps.toInt)
    (k : Nat) :
    gainSet k x g = g.startRamp x g.gainSteps (fdiv k (fsub k x g.gainCur) (i2f g.gainSteps)) := by
  rw [gainSet, if_neg (by simp [h]), if_neg (by simp [(nonPositive_eq_false_iff _).mpr hn]), Globals.startRamp]

theorem frame_snapGain (s : State) (x : Word) :
    Frame [.glob .gainCur, .glob .gainTarget, .glob .gainCount] s (s.updGlobals (·.snapGain x)) := by
  refine frame_updGlobals fun r hr => ?_
  cases r with
  | gainCur | gainTarget | gainCount => simp at hr
  | _ => rfl

theorem frame_startRamp (s : State) (x count step : Word) :
    Frame [.glob .gainTarget, .glob .gainCount, .glob .gainStep] s (s.updGlobals (·.startRamp x count step)) := by
  refine frame_updGlobals fun r hr => ?_
  cases r with
  | gainTarget | gainCount | gainStep => simp at hr
  | _ => rfl

/-! ### GAIN_NEXT -/

/-- What a GAIN_NEXT within a ramp writes (R312). -/
def Globals.setGain (count cur : Word) (g : Globals) : Globals :=
  { g with gainCount := count, gainCur := cur, gainOut := cur }

theorem gainNext_of_over {g : Globals} (h : g.gainCount.toInt ≤ 0) (k : Nat) :
    gainNext k g = { g with gainOut := g.gainTarget } := by
  rw [gainNext, if_pos ((nonPositive_eq_true_iff _).mpr h)]

theorem gainNext_of_ramp {g : Globals} (h : 0 < g.gainCount.toInt) (k : Nat) :
    gainNext k g = g.setGain (g.gainCount - 1)
      (if 0 < (g.gainCount - 1).toInt then fadd k g.gainCur g.gainStep else g.gainTarget) := by
  rw [gainNext, if_neg (by simp [(nonPositive_eq_false_iff _).mpr h])]
  simp only [positive, decide_eq_true_eq, Globals.setGain]

/-- A call before the last moves by one rounded step. -/
theorem gainNext_of_inside {g : Globals} (h : 1 < g.gainCount.toInt) (k : Nat) :
    gainNext k g = g.setGain (g.gainCount - 1) (fadd k g.gainCur g.gainStep) := by
  have hsub := toInt_sub_one_of_pos (n := g.gainCount) (by omega)
  rw [gainNext_of_ramp (by omega), if_pos (by omega)]

/-- The last call of a ramp copies the target. -/
theorem gainNext_of_last {g : Globals} (h : g.gainCount.toInt = 1) (k : Nat) :
    gainNext k g = g.setGain 0 g.gainTarget := by
  have hcount : g.gainCount = 1 := BitVec.eq_of_toInt_eq h
  rw [gainNext_of_ramp (by omega), hcount]
  rfl

theorem frame_gainOut (s : State) (out : Word) :
    Frame [.glob .gainOut] s (s.updGlobals ({ · with gainOut := out })) := by
  refine frame_updGlobals fun r hr => ?_
  cases r with
  | gainOut => simp at hr
  | _ => rfl

theorem frame_setGain (s : State) (count cur : Word) :
    Frame [.glob .gainCount, .glob .gainCur, .glob .gainOut] s (s.updGlobals (·.setGain count cur)) := by
  refine frame_updGlobals fun r hr => ?_
  cases r with
  | gainCount | gainCur | gainOut => simp at hr
  | _ => rfl

/-- Only what the update makes of the globals as they are counts. -/
theorem State.updGlobals_congr {s : State} {f f' : Globals → Globals} (h : f s.g = f' s.g) :
    s.updGlobals f = s.updGlobals f' :=
  congrArg (fun g => { s with g := g }) h

/-! ### A ramp, call by call (R313) -/

/-- After `n` calls of a ramp from `g` that are not its last: `n` rounded steps have been added, and the rest of the
ramp is as it was. -/
structure RampAfter (k n : Nat) (g g' : Globals) : Prop where
  count : g'.gainCount.toInt = g.gainCount.toInt - n
  cur : g'.gainCur = (fun y => fadd k y g.gainStep)^[n] g.gainCur
  step : g'.gainStep = g.gainStep
  target : g'.gainTarget = g.gainTarget
  out : 0 < n → g'.gainOut = g'.gainCur

/-- A ramp is over at `x`. -/
structure RampOver (x : Word) (g : Globals) : Prop where
  count : g.gainCount = 0
  cur : g.gainCur = x
  target : g.gainTarget = x
  out : g.gainOut = x

theorem rampAfter_iterate (k : Nat) {n : Nat} {g : Globals} (h : (n : Int) < g.gainCount.toInt) :
    RampAfter k n g ((gainNext k)^[n] g) := by
  induction n with
  | zero => exact ⟨by simp, rfl, rfl, rfl, nofun⟩
  | succ n ih =>
    push_cast at h
    obtain ⟨hcount, hcur, hstep, htarget, -⟩ := ih (by omega)
    rw [Function.iterate_succ_apply', gainNext_of_inside (by omega)]
    refine ⟨?_, ?_, hstep, htarget, fun _ => rfl⟩
    · rw [Globals.setGain, toInt_sub_one_of_pos (by omega), hcount]
      push_cast
      omega
    · rw [Globals.setGain, Function.iterate_succ_apply', hcur, hstep]

theorem RampOver.gainNext {x : Word} {g : Globals} (h : RampOver x g) (k : Nat) : RampOver x (gainNext k g) := by
  rw [gainNext_of_over (by rw [h.count]; decide)]
  exact ⟨h.count, h.cur, h.target, h.target⟩

theorem rampOver_iterate (k : Nat) {n : Nat} {g : Globals} (hpos : 0 < g.gainCount.toInt)
    (h : g.gainCount.toInt ≤ n) : RampOver g.gainTarget ((gainNext k)^[n] g) := by
  induction n with
  | zero => exact absurd hpos (not_lt.mpr h)
  | succ n ih =>
    rw [Function.iterate_succ_apply']
    by_cases hn : g.gainCount.toInt ≤ n
    · exact (ih hn).gainNext k
    · have hlast := rampAfter_iterate k (not_le.mp hn)
      push_cast at h
      rw [gainNext_of_last (by rw [hlast.count]; omega)]
      exact ⟨rfl, hlast.target, hlast.target, hlast.target⟩

theorem runAll_gainNext (n : Nat) (s : State) :
    runAll (List.replicate n .gainNext) s = .next (s.updGlobals (gainNext s.freeDraws)^[n]) := by
  induction n generalizing s with
  | zero => rfl
  | succ n ih => exact ih (s.updGlobals (gainNext s.freeDraws))

/-! ### The statements -/

theorem commandWord_gainReset : CommandWord 0x20 false false false 1 (fun _ _ _ => .gainReset) :=
  commandWord_of_arm (fun w h => by simp only [dataWords, h]) (fun w d0 d1 h => by simp only [decodeCmd, h])

theorem commandWord_gainSet : CommandWord 0x21 false false false 2 (fun _ x _ => .gainSet x) :=
  commandWord_of_arm (fun w h => by simp only [dataWords, h]) (fun w d0 d1 h => by simp only [decodeCmd, h])

theorem commandWord_gainNext : CommandWord 0x22 false false false 1 (fun _ _ _ => .gainNext) :=
  commandWord_of_arm (fun w h => by simp only [dataWords, h]) (fun w d0 d1 h => by simp only [decodeCmd, h])

/-- Settles O46: GAIN_RESET writes two registers of the globals. -/
theorem gainResetEndsTheRamp : Obligations.GainResetEndsTheRamp := by
  unfold Obligations.GainResetEndsTheRamp
  exact ⟨commandWord_gainReset, fun s => ⟨s.updGlobals gainReset, rfl, rfl, rfl, frame_gainReset s⟩⟩

/-- Settles O47: the three branches of R311, each with what it writes. -/
theorem gainSetStartsARamp : Obligations.GainSetStartsARamp := by
  unfold Obligations.GainSetStartsARamp
  refine ⟨commandWord_gainSet, fun s x => ⟨s.updGlobals (gainSet s.freeDraws x), rfl, fun h => ?_, fun h hn => ?_,
    fun h hn => ?_⟩⟩
  · exact State.updGlobals_congr (f' := id) (gainSet_of_sameTarget h _)
  · rw [State.updGlobals_congr (gainSet_of_snap h hn _)]
    exact ⟨rfl, rfl, rfl, frame_snapGain s x⟩
  · rw [State.updGlobals_congr (f' := (·.startRamp x s.g.gainSteps _)) (gainSet_of_ramp h hn _)]
    exact ⟨rfl, rfl, rfl, frame_startRamp s x _ _⟩

/-- Settles O48: the two branches of R312, each with what it writes. -/
theorem gainNextStepsTheRamp : Obligations.GainNextStepsTheRamp := by
  unfold Obligations.GainNextStepsTheRamp
  refine ⟨commandWord_gainNext, fun s => ⟨s.updGlobals (gainNext s.freeDraws), rfl, fun h => ?_, fun h => ?_⟩⟩
  · rw [State.updGlobals_congr (f' := ({ · with gainOut := s.g.gainTarget })) (gainNext_of_over h _)]
    exact ⟨rfl, frame_gainOut s _⟩
  · rw [State.updGlobals_congr (f' := (·.setGain _ _)) (gainNext_of_ramp h _)]
    exact ⟨rfl, rfl, rfl, frame_setGain s _ _⟩

/-- Settles O49: the calls before the last step the ramp, the last one lands it, and later ones leave it there. -/
theorem gainRampLandsOnTarget : Obligations.GainRampLandsOnTarget := by
  unfold Obligations.GainRampLandsOnTarget
  intro s x n steps hx hpos hn
  let s1 := s.updGlobals (gainSet s.freeDraws x)
  have hset : s1.g = s.g.startRamp x s.g.gainSteps _ := gainSet_of_ramp hx hpos s.freeDraws
  have hcount : s1.g.gainCount.toInt = steps := by rw [hset]; rfl
  have hcur : s1.g.gainCur = s.g.gainCur := by rw [hset, Globals.startRamp]
  have htarget : s1.g.gainTarget = x := by rw [hset, Globals.startRamp]
  refine ⟨_, runAll_gainNext n s1, fun hle => ?_, fun hlt => ?_⟩
  · have hover := rampOver_iterate s1.freeDraws (by rwa [hcount]) (by rwa [hcount])
    rw [htarget] at hover
    exact ⟨hover.out, hover.cur, hover.count⟩
  · have hramp := rampAfter_iterate s1.freeDraws (by rwa [hcount])
    simp only [readReg, State.updGlobals_g, readGlobal]
    rw [hramp.out hn, hramp.cur, hramp.step, hcur]
    rfl

end Sys2Proof.Machine
end

section
/-! SUPPORT. The commands on every voice (R320 to R324): BLOCK_BEGIN, BLOCK_END and CORE_RESET voice by voice, and the
loop of SAMPLE, one round of which is one update of its voice and one addition to each sum. -/

namespace Sys2Proof.Machine

/-! ### A command on every voice, seen from one voice -/

theorem readReg_mapVoices_of_fixed {s : State} {f : Voice → Voice} {v : Fin 8} {r : Reg} (hr : r.voice? = some v)
    (h : f (s.voice v) = s.voice v) : readReg (s.mapVoices f) r = readReg s r :=
  readReg_eq_of_voice_eq (by rw [State.mapVoices_voice, h]) hr

theorem readReg_mapVoices_of_global (s : State) (f : Voice → Voice) {r : Reg} (hr : r.voice? = none) :
    readReg (s.mapVoices f) r = readReg s r :=
  readReg_congr r (fun _ => rfl) fun v hv => by simp [hr] at hv

/-! ### BLOCK_BEGIN (R320) -/

/-- The values that BLOCK_BEGIN latches outside the oscillators. -/
def Voice.latch (glideRate filterQ pitchBend filterEnvDepth : Word) (vo : Voice) : Voice :=
  { vo with glideRate := glideRate, filterQ := filterQ, pitchBend := pitchBend, filterEnvDepth := filterEnvDepth }

theorem frame_latch (s : State) (v : Fin 8) (glideRate filterQ pitchBend filterEnvDepth : Word) :
    Frame [.voice v .glideRate, .voice v .filterQ, .voice v .pitchBend, .voice v .filterEnvDepth] s
      (s.updVoice v (·.latch glideRate filterQ pitchBend filterEnvDepth)) := by
  refine frame_updVoice_record fun r hr => ?_
  cases r with
  | glideRate | filterQ | pitchBend | filterEnvDepth => simp at hr
  | _ => rfl

theorem blockBeginVoice_of_inactive {vo : Voice} (h : voiceActive vo = false) (k : Nat) (g : Globals) :
    blockBeginVoice k g vo = vo := by
  rw [blockBeginVoice, if_neg (by simp [h])]

theorem blockBeginVoice_of_active {vo : Voice} (h : voiceActive vo = true) (k : Nat) (g : Globals) :
    blockBeginVoice k g vo = (voicePeriod k g.pitchBend g.detune vo).latch g.glideRate
      (fmul k g.filterQ g.resonanceCtl) g.pitchBend g.filterEnvDepth := by
  rw [blockBeginVoice, if_pos h, Voice.latch]

/-- In an active voice BLOCK_BEGIN is VOICE_PERIOD and then the latch. -/
theorem readReg_blockBegin_of_active {s : State} {v : Fin 8} (h : activeBit s v = true) {r : Reg}
    (hr : r.voice? = some v) :
    readReg (s.mapVoices (blockBeginVoice s.freeDraws s.g)) r =
      readReg ((s.updVoice v (voicePeriod s.freeDraws s.g.pitchBend s.g.detune)).updVoice v
        (·.latch s.g.glideRate (fmul s.freeDraws s.g.filterQ s.g.resonanceCtl) s.g.pitchBend
          s.g.filterEnvDepth)) r := by
  rw [activeBit_eq] at h
  refine readReg_eq_of_voice_eq ?_ hr
  rw [State.mapVoices_voice, blockBeginVoice_of_active h, State.updVoice_voice_self, State.updVoice_voice_self]

/-! ### BLOCK_END (R323) -/

theorem blockEndVoice_of_active {vo : Voice} (h : voiceActive vo = true) : blockEndVoice vo = vo := by
  rw [blockEndVoice, if_pos h]

theorem blockEndVoice_of_inactive {vo : Voice} (h : voiceActive vo = false) :
    blockEndVoice vo = (vo.updEnv 0 envReset).updFilt filtReset := by
  rw [blockEndVoice, if_neg (by simp [h])]
  rfl

/-- In an inactive voice BLOCK_END is ENV_RESET of envelope 0 and then FILT_RESET. -/
theorem readReg_blockEnd_of_inactive {s : State} {v : Fin 8} (h : activeBit s v = false) {r : Reg}
    (hr : r.voice? = some v) :
    readReg (s.mapVoices blockEndVoice) r =
      readReg ((s.updVoice v (·.updEnv 0 envReset)).updVoice v (·.updFilt filtReset)) r := by
  rw [activeBit_eq] at h
  refine readReg_eq_of_voice_eq ?_ hr
  rw [State.mapVoices_voice, blockEndVoice_of_inactive h, State.updVoice_voice_self, State.updVoice_voice_self]

theorem voiceResets_blockEnd (s : State) (v : Fin 8) :
    VoiceResets v (envDynamicRegs v 0 ++ filtResetRegs v) s
      ((s.updVoice v (·.updEnv 0 envReset)).updVoice v (·.updFilt filtReset)) := by
  have hstart : VoiceResets v [] s s := ⟨nofun, .refl [] s, .refl s⟩
  exact (hstart.envReset 0).filtReset

/-! ### The loop of SAMPLE (R321) -/

theorem sampleVoice_of_inactive {vo : Voice} (h : voiceActive vo = false) (k : Nat) (noise : Word) :
    sampleVoice k noise vo = vo := by
  rw [sampleVoice, if_neg (by simp [h])]

/-- One round of the loop: the voice's part in `SAMPLE`, and its part in the sums. -/
theorem sampleLoop_cons (noise : Word) (v : Fin 8) (vs : List (Fin 8)) (s : State) (acc : Word × Word) :
    sampleLoop noise (v :: vs) s acc.1 acc.2 =
      sampleLoop noise vs (s.updVoice v (sampleVoice s.freeDraws noise))
        (mixVoice s.freeDraws noise acc (s.voice v)).1 (mixVoice s.freeDraws noise acc (s.voice v)).2 := by
  rw [sampleLoop, activeBit_eq, mixVoice]
  cases h : voiceActive (s.voice v) with
  | true =>
    have hvoice : sampleVoice s.freeDraws noise (s.voice v) = voiceRender s.freeDraws noise (s.voice v) := if_pos h
    simp only [if_true, exec_eq_voiceEffect (i := .voiceRender v noise) rfl, voiceEffect, readReg_updVoice_record,
      State.updVoice_congr hvoice]
    rfl
  | false =>
    rw [State.updVoice_of_fixed (sampleVoice_of_inactive h _ _)]
    rfl

/-- The loop over distinct voices: no round changes a voice that a later one reads. -/
theorem sampleLoop_eq_foldl (noise : Word) {vs : List (Fin 8)} (hvs : vs.Nodup) (s : State) (acc : Word × Word) :
    sampleLoop noise vs s acc.1 acc.2 =
      .next (vs.foldl (fun t v => t.updVoice v (sampleVoice s.freeDraws noise)) s,
        (vs.map s.voice).foldl (mixVoice s.freeDraws noise) acc) := by
  induction vs generalizing s acc with
  | nil => rfl
  | cons v vs ih =>
    obtain ⟨hv, hnodup⟩ := List.nodup_cons.mp hvs
    have hlater : vs.map (s.updVoice v (sampleVoice s.freeDraws noise)).voice = vs.map s.voice :=
      List.map_congr_left fun w hw => State.updVoice_voice_ne s _ fun e => hv (e ▸ hw)
    rw [sampleLoop_cons, ih hnodup, hlater]
    rfl

theorem sampleLoop_voiceOrder (noise : Word) (s : State) :
    sampleLoop noise voiceOrder s 0x00000000 0x00000000 =
      .next (s.mapVoices (sampleVoice s.freeDraws noise), mixVoices s.freeDraws noise s.voices) :=
  sampleLoop_eq_foldl noise (by decide) s (Config.zeroF, Config.zeroF)

/-- The loop ends, and it leaves the globals and the ports alone. -/
theorem exists_sampleLoop_voiceOrder (noise : Word) (s : State) :
    ∃ t l r, sampleLoop noise voiceOrder s 0x00000000 0x00000000 = .next (t, l, r) ∧ SamePorts s t ∧ t.g = s.g :=
  ⟨_, _, _, sampleLoop_voiceOrder noise s, samePorts_mapVoices s _, rfl⟩

/-! ### The output of SAMPLE (R321, R322) -/

/-- What SAMPLE does to the globals after the gain has advanced. -/
def mixOut (k : Nat) (l r : Word) (g : Globals) : Globals :=
  monoFold k (fmul k l g.gainOut) (fmul k r g.gainOut) { g with mixL := l, mixR := r }

/-- The gain does not depend on the sums. -/
theorem gainNext_setMix (k : Nat) (l r : Word) (g : Globals) :
    gainNext k { g with mixL := l, mixR := r } = { gainNext k g with mixL := l, mixR := r } := by
  unfold gainNext
  dsimp only
  split <;> rfl

theorem updGlobals_sampleOut (s : State) (k : Nat) (l r : Word) :
    s.updGlobals (sampleOut k l r) = (s.updGlobals (gainNext k)).updGlobals (mixOut k l r) := by
  simp only [State.updGlobals, sampleOut, gainNext_setMix, mixOut]

theorem monoFold_eq (k : Nat) (l r : Word) (g : Globals) :
    monoFold k l r g = { g with
      outL := if g.mono then fmul k (fadd k l r) Config.halfF else l
      outR := if g.mono then Config.zeroF else r } := by
  rw [monoFold]
  split <;> rfl

theorem sameRegsExcept_mixOut (s : State) (k : Nat) (l r : Word) :
    SameRegsExcept [.glob .mixL, .glob .mixR, .glob .outL, .glob .outR] s (s.updGlobals (mixOut k l r)) := by
  refine sameRegsExcept_updGlobals fun q hq => ?_
  rw [mixOut, monoFold_eq]
  cases q with
  | mixL | mixR | outL | outR => simp at hq
  | _ => rfl

theorem getLsbD_zero_ctrlWord (g : Globals) : (ctrlWord g).getLsbD 0 = g.mono := by
  rw [ctrlWord, BitVec.getLsbD_append]
  simp

/-- What SAMPLE's output step shows of the sums `l` and `r` (R322). -/
theorem readReg_mixOut (s : State) (k : Nat) (l r : Word) :
    let t := s.updGlobals (mixOut k l r)
    let l' := fmul k l (readReg s (.glob .gainOut))
    let r' := fmul k r (readReg s (.glob .gainOut))
    readReg t (.glob .mixL) = l ∧ readReg t (.glob .mixR) = r ∧
      readReg t (.glob .outL) = (if s.g.mono then fmul k (fadd k l' r') 0x3F000000 else l') ∧
      readReg t (.glob .outR) = (if s.g.mono then 0x00000000 else r') := by
  simp only [readReg_updGlobals_glob, mixOut, monoFold_eq]
  exact ⟨rfl, rfl, rfl, rfl⟩

/-! ### SAMPLE as the sequence of R321 -/

/-- The host's settings that SAMPLE reads itself are the same: `NOISE_MIX` and `MONO`. -/
def SameMixSettings (g g' : Globals) : Prop := g'.noiseMix = g.noiseMix ∧ g'.mono = g.mono

theorem sameMixSettings_lfoTick (k : Nat) (s : State) : SameMixSettings s.g (lfoTick k s).g := by
  unfold lfoTick
  dsimp only
  split <;> exact ⟨rfl, rfl⟩

theorem sameMixSettings_noiseNext (k : Nat) (m : NoiseMap) (g : Globals) : SameMixSettings g (noiseNext k m g) := by
  unfold noiseNext
  exact ⟨rfl, rfl⟩

theorem sameMixSettings_gainNext (k : Nat) (g : Globals) : SameMixSettings g (gainNext k g) := by
  unfold gainNext
  split <;> exact ⟨rfl, rfl⟩

/-- The state in which the loop of SAMPLE begins: the LFO and the noise have advanced. -/
def State.sampleStart (s : State) : State :=
  let ticked := lfoTick s.freeDraws s
  ticked.updGlobals (noiseNext ticked.freeDraws ticked.noiseMap)

theorem samePorts_sampleStart (s : State) : SamePorts s s.sampleStart :=
  (samePorts_lfoTick s.freeDraws s).trans (samePorts_updGlobals _ _)

theorem sameMixSettings_sampleStart (s : State) : SameMixSettings s.g s.sampleStart.g := by
  obtain ⟨hmixLfo, hmonoLfo⟩ := sameMixSettings_lfoTick s.freeDraws s
  obtain ⟨hmix, hmono⟩ := sameMixSettings_noiseNext (lfoTick s.freeDraws s).freeDraws (lfoTick s.freeDraws s).noiseMap
    (lfoTick s.freeDraws s).g
  exact ⟨hmix.trans hmixLfo, hmono.trans hmonoLfo⟩

theorem exec_noiseNext_lfoTick (s : State) : exec .noiseNext (lfoTick s.freeDraws s) = .next s.sampleStart := rfl

theorem sampleStep_eq {s : State} {noise : Word}
    (hnoise : noise = fmul s.freeDraws s.sampleStart.g.noiseOut s.sampleStart.g.noiseMix) :
    sampleStep s.freeDraws s = (s.sampleStart.mapVoices (sampleVoice s.freeDraws noise)).updGlobals
      (sampleOut s.freeDraws (mixVoices s.freeDraws noise s.sampleStart.voices).1
        (mixVoices s.freeDraws noise s.sampleStart.voices).2) := by
  obtain ⟨-, -, -, hk, -⟩ := samePorts_lfoTick s.freeDraws s
  have hstart : s.sampleStart =
      (lfoTick s.freeDraws s).updGlobals (noiseNext s.freeDraws (lfoTick s.freeDraws s).noiseMap) := by
    rw [State.sampleStart, hk]
  subst hnoise
  rw [sampleStep, hstart]

-- Two reads to rewrite with: in `sampleStart` the kernel would unfold what NOISE_NEXT computes to see them.
theorem readReg_noiseOut (s : State) : readReg s (.glob .noiseOut) = s.g.noiseOut := rfl

theorem readReg_noiseMix (s : State) : readReg s (.glob .noiseMix) = s.g.noiseMix := rfl

/-- The sequence of R321, and its output step. -/
theorem exec_sample_eq {s s3 s4 : State} {noise l r : Word}
    (hnoise : noise = fmul s.freeDraws (readReg s.sampleStart (.glob .noiseOut)) (readReg s (.glob .noiseMix)))
    (hloop : sampleLoop noise voiceOrder s.sampleStart 0x00000000 0x00000000 = .next (s3, l, r))
    (hgain : exec .gainNext s3 = .next s4) :
    exec .sample s = .next (s4.updGlobals (mixOut s.freeDraws l r)) := by
  obtain ⟨-, -, -, hk, -⟩ := samePorts_sampleStart s
  obtain ⟨hmix, -⟩ := sameMixSettings_sampleStart s
  rw [readReg_noiseOut, readReg_noiseMix, ← hmix] at hnoise
  have hstep := sampleStep_eq hnoise
  rw [sampleLoop_voiceOrder, hk] at hloop
  obtain ⟨rfl, hsums⟩ : _ = s3 ∧ _ = (l, r) := by simpa using hloop
  rw [hsums, updGlobals_sampleOut] at hstep
  cases hgain
  rw [State.mapVoices_freeDraws, hk]
  exact congrArg Host.Outcome.next hstep

/-! ### CORE_RESET (R324, R361) -/

theorem readGlobal_coreReset (g : Globals) (r : GReg) : readGlobal (coreResetGlobals g) r =
    if keptByCoreReset (.glob r) then readGlobal g r
    else if Reg.glob r = .glob .gainCur then g.gainTarget else powerOnValue (.glob r) := by
  cases r <;> rfl

theorem readVoice_voiceReset (v : Fin 8) (vo : Voice) (r : VReg) : readVoice (voiceReset vo) r =
    if keptByCoreReset (.voice v r) then readVoice vo r else powerOnValue (.voice v r) := by
  cases r <;> rfl

theorem voiceReset_osc (vo : Voice) (u : Fin 2) : (voiceReset vo).osc u = oscReset (vo.osc u) := by
  fin_cases u <;> rfl

theorem voiceReset_env (vo : Voice) (u : Fin 2) : (voiceReset vo).env u = envReset (vo.env u) := by
  fin_cases u <;> rfl

theorem readOsc_oscReset (v : Fin 8) (u : Fin 2) (o : Oscillator) (r : OReg) : readOsc (oscReset o) r =
    if keptByCoreReset (.osc v u r) then readOsc o r else powerOnValue (.osc v u r) := by
  cases r <;> rfl

theorem readEnv_envReset (v : Fin 8) (u : Fin 2) (e : Envelope) (r : EReg) : readEnv (envReset e) r =
    if keptByCoreReset (.env v u r) then readEnv e r else powerOnValue (.env v u r) := by
  cases r with
  | status => exact envStatusWord_of_zeroF rfl rfl
  | _ => rfl

theorem readFilt_filtReset (v : Fin 8) (f : Filter) (r : FReg) : readFilt (filtReset f) r =
    if keptByCoreReset (.filt v r) then readFilt f r else powerOnValue (.filt v r) := by
  cases r <;> rfl

/-- A register of a voice after CORE_RESET, by the table of R361. -/
theorem readReg_coreReset_of_voice (s : State) {r : Reg} (hr : r.voice? ≠ none) :
    readReg ((s.mapVoices voiceReset).updGlobals coreResetGlobals) r =
      if keptByCoreReset r then readReg s r else powerOnValue r := by
  cases r with
  | glob r => exact absurd rfl hr
  | voice v r =>
    rw [readReg, State.updGlobals_voice, State.mapVoices_voice]
    exact readVoice_voiceReset v _ r
  | osc v u r =>
    rw [readReg, State.updGlobals_voice, State.mapVoices_voice, voiceReset_osc]
    exact readOsc_oscReset v u _ r
  | env v u r =>
    rw [readReg, State.updGlobals_voice, State.mapVoices_voice, voiceReset_env]
    exact readEnv_envReset v u _ r
  | filt v r =>
    rw [readReg, State.updGlobals_voice, State.mapVoices_voice]
    exact readFilt_filtReset v _ r

/-! ### The statements -/

theorem commandWord_coreReset : CommandWord 0x03 false false false 1 (fun _ _ _ => .coreReset) :=
  commandWord_of_arm (fun w h => by simp only [dataWords, h]) (fun w d0 d1 h => by simp only [decodeCmd, h])

theorem commandWord_blockBegin : CommandWord 0x24 false false false 1 (fun _ _ _ => .blockBegin) :=
  commandWord_of_arm (fun w h => by simp only [dataWords, h]) (fun w d0 d1 h => by simp only [decodeCmd, h])

theorem commandWord_sample : CommandWord 0x25 false false false 1 (fun _ _ _ => .sample) :=
  commandWord_of_arm (fun w h => by simp only [dataWords, h]) (fun w d0 d1 h => by simp only [decodeCmd, h])

theorem commandWord_blockEnd : CommandWord 0x26 false false false 1 (fun _ _ _ => .blockEnd) :=
  commandWord_of_arm (fun w h => by simp only [dataWords, h]) (fun w d0 d1 h => by simp only [decodeCmd, h])

/-- Settles O50: an inactive voice is fixed, and in an active one the latch comes after VOICE_PERIOD. -/
theorem blockBeginLatchesActiveVoices : Obligations.BlockBeginLatchesActiveVoices := by
  unfold Obligations.BlockBeginLatchesActiveVoices
  refine ⟨commandWord_blockBegin, fun s => ⟨s.mapVoices (blockBeginVoice s.freeDraws s.g), rfl, samePorts_mapVoices s _,
    fun r hr => readReg_mapVoices_of_global s _ hr, fun v => ⟨fun hv r hr => ?_, fun hv => ⟨_, rfl, ?_⟩⟩⟩⟩
  · rw [activeBit_eq] at hv
    exact readReg_mapVoices_of_fixed hr (blockBeginVoice_of_inactive hv ..)
  · have hlatch (r : VReg) := readReg_blockBegin_of_active hv (r := .voice v r) rfl
    simp only [readReg_updVoice_record] at hlatch
    refine ⟨hlatch .glideRate, hlatch .filterQ, hlatch .pitchBend, hlatch .filterEnvDepth, fun r hr hout => ?_⟩
    rw [readReg_blockBegin_of_active hv hr]
    exact (frame_latch ..).1 r hout

/-- Settles O51: the sequence of R321, whose loop leaves the globals alone, and then the output step. -/
theorem sampleRunsThePerSampleOrder : Obligations.SampleRunsThePerSampleOrder := by
  unfold Obligations.SampleRunsThePerSampleOrder
  refine ⟨commandWord_sample, fun s => ?_⟩
  obtain ⟨s3, l, r, hloop, hports, hglobals⟩ := exists_sampleLoop_voiceOrder
    (fmul s.freeDraws (readReg s.sampleStart (.glob .noiseOut)) (readReg s (.glob .noiseMix))) s.sampleStart
  let s4 := s3.updGlobals (gainNext s3.freeDraws)
  have hmono : s4.g.mono = (readReg s (.glob .ctrl)).getLsbD 0 := by
    rw [readReg, readGlobal, getLsbD_zero_ctrlWord, State.updGlobals_g, (sameMixSettings_gainNext ..).2, hglobals,
      (sameMixSettings_sampleStart s).2]
  obtain ⟨hmixL, hmixR, houtL, houtR⟩ := readReg_mixOut s4 s.freeDraws l r
  rw [hmono] at houtL houtR
  exact ⟨_, s.sampleStart, s3, s4, _, l, r, rfl, exec_noiseNext_lfoTick s, hloop, rfl, exec_sample_eq rfl hloop rfl,
    hmixL, hmixR, houtL, houtR, sameRegsExcept_mixOut s4 s.freeDraws l r,
    (((samePorts_sampleStart s).trans hports).trans (samePorts_updGlobals _ _)).trans (samePorts_updGlobals _ _)⟩

/-- Settles O52: an active voice is fixed, and in an inactive one two of its units are reset. -/
theorem blockEndFreesSilentVoices : Obligations.BlockEndFreesSilentVoices := by
  unfold Obligations.BlockEndFreesSilentVoices
  refine ⟨commandWord_blockEnd, fun s => ⟨s.mapVoices blockEndVoice, rfl, samePorts_mapVoices s _,
    fun r hr => readReg_mapVoices_of_global s _ hr, fun v => ⟨fun hv r hr => ?_, fun hv => ?_⟩⟩⟩
  · rw [activeBit_eq] at hv
    exact readReg_mapVoices_of_fixed hr (blockEndVoice_of_active hv)
  · obtain ⟨hzero, hframe⟩ := voiceResets_blockEnd s v
    refine ⟨fun r hr => ?_, fun r hr hout => ?_⟩
    · have hunit : r.voice? = some v ∧ ¬(r = .voice v .panLeft ∨ r = .voice v .panRight) := by
        revert r
        simp [envDynamicRegs, filtResetRegs, filtCoefRegs, Reg.voice?]
      rw [readReg_blockEnd_of_inactive hv hunit.1, hzero r hr, if_neg hunit.2]
    · rw [readReg_blockEnd_of_inactive hv hr, hframe.1 r hout]

/-- Settles O53: the globals by R324's list, and every voice by VOICE_RESET. -/
theorem coreResetKeepsTheListedRegisters : Obligations.CoreResetKeepsTheListedRegisters := by
  unfold Obligations.CoreResetKeepsTheListedRegisters
  refine ⟨commandWord_coreReset, fun s => ⟨(s.mapVoices voiceReset).updGlobals coreResetGlobals, rfl,
    (samePorts_mapVoices s _).trans (samePorts_updGlobals _ _), fun r => ?_⟩, rfl⟩
  cases hr : r.voice? with
  | some v =>
    have hcur : r ≠ .glob .gainCur := by
      rintro rfl
      cases hr
    rw [if_neg hcur]
    exact readReg_coreReset_of_voice s (by simp [hr])
  | none =>
    cases r with
    | glob r => exact readGlobal_coreReset s.g r
    | _ => cases hr

end Sys2Proof.Machine
end
